-- ==== Sys2Proof/Word.lean ====
section
/-! DEFINITION. The word types of the CORE (00_scope.md R17): the values the spec treats as bits. Magnitudes, indexes,
counts and sums are natural numbers, because the spec computes with them exactly (00_scope.md R15 to R17). -/

namespace Sys2Proof

/-- A byte, `u8` (00_scope.md R17). -/
abbrev Byte := BitVec 8

/-- The 24-bit value of the CRC register, `u24` (10_state.md R65). -/
abbrev Word24 := BitVec 24

/-- The 32-bit result of XBITS, `u32` (45_bitfield_decoder.md R350). -/
abbrev Word32 := BitVec 32

end Sys2Proof
end

