-- ==== Sys2Proof/Config.lean ====
section
/-! DEFINITION. The configuration record of 00_scope.md R13, with the constraints of 70_reset_and_hazards.md R524 as a
proof it carries: no run exists without one. The two parameters the spec leaves OPEN without a default are opaque. -/

namespace Sys2Proof

/-- `VAR_DIV`: the divisor of the variance (00_scope.md R13, 41_threshold.md R230). -/
inductive VarDiv where
  /-- `POP`: divide by N. -/
  | pop
  /-- `SAMPLE`: divide by N − 1. -/
  | sample
deriving DecidableEq, Repr

/-- The constraints of 70_reset_and_hazards.md R524 on `K`, `BLOCK_BYTES`, `C` and `ACQ_EXIT_CODE`. -/
def paramsOk (k blockBytes c : Nat) (acqExitCode : Int) : Bool :=
  decide (1 ≤ k) && decide (blockBytes % 4 = 0) && decide (c ≤ 510) && decide (acqExitCode ≠ 0)

/-- The configuration record (00_scope.md R13). "A model takes a proof of the constraints with the configuration, and no
run exists without one" (70_reset_and_hazards.md R524): that proof is the field `ok`. -/
structure Params where
  /-- `K`, FIFO_DEPTH: the FIFO's capacity in entries. -/
  k : Nat
  /-- `BLOCK_BYTES`: the byte count of every SampleBlock the source delivers. -/
  blockBytes : Nat
  /-- `C`, IQ_OFFSET_X2: twice the offset removed from each I and Q byte. -/
  c : Nat
  /-- `VAR_DIV`. -/
  varDiv : VarDiv
  /-- `ACQ_EXIT_CODE`: the process status the host reports after an acquisition error. -/
  acqExitCode : Int
  /-- The constraints of R524. -/
  ok : paramsOk k blockBytes c acqExitCode = true := by decide
deriving DecidableEq, Repr

/-- A quarter of `BLOCK_BYTES` at reset: OPEN in 00_scope.md R13, so nothing constrains it (DESIGN CHOICE, log 2). -/
opaque Config.blockQuads : Nat

/-- The number `ACQ_EXIT_CODE` at reset is made from: OPEN in 00_scope.md R13 (DESIGN CHOICE, log 2). -/
opaque Config.exitSeed : Int

/-- Any nonzero integer, as `exitSeed` ranges over the integers (00_scope.md R13). -/
def Config.exitCode : Int := if 0 ≤ Config.exitSeed then Config.exitSeed + 1 else Config.exitSeed

theorem Config.exitCode_ne_zero : Config.exitCode ≠ 0 := by
  unfold Config.exitCode
  split <;> omega

/-- The configuration of `State.reset`: the defaults of 00_scope.md R13 where it gives one, opaque where it is OPEN. -/
def Config.params : Params where
  k := 32
  blockBytes := 4 * Config.blockQuads
  c := 255
  varDiv := .pop
  acqExitCode := Config.exitCode
  ok := by simp [paramsOk, Config.exitCode_ne_zero]

end Sys2Proof
end

