-- ==== Sys2Proof/Syntax.lean ====
section
/-! DEFINITION. The syntax of the CORE's operations: the typed fields a transaction carries beside its command word
(30_encoding.md R152) and `Instr`, one constructor per row of the opcode map (30_encoding.md R153). Operand values are
raw natural numbers, so that a value outside its declared type can be written and refused (30_encoding.md R156). -/

namespace Sys2Proof

/-- ThresholdStats, the record `N, S1, S2` (10_state.md R73). -/
structure Stats where
  n : Nat
  s1 : Nat
  s2 : Nat
deriving DecidableEq, Repr

/-- An entry of the FIFO: `Data(mb)` or the terminating marker `End` (10_state.md R58, 46_fifo.md R397). -/
inductive Entry where
  /-- `Data(mb)`, carrying one MagnitudeBuffer. -/
  | data (mb : List Nat)
  /-- `End`. -/
  | endMark
deriving DecidableEq, Repr

/-- One typed field of a transaction, beside the command word (30_encoding.md R152). -/
inductive Field where
  /-- A `u1`, `u8`, `u19`, `u24` value, or a Nat index or count. -/
  | num (n : Nat)
  /-- A byte sequence or a MagnitudeBuffer. -/
  | seq (xs : List Nat)
  /-- A ThresholdStats record. -/
  | stats (st : Stats)
  /-- An Entry. -/
  | entry (e : Entry)
deriving DecidableEq, Repr

/-- The declared type of an operand (30_encoding.md R152, R153). -/
inductive OperandType where
  /-- A Nat index or count. -/
  | nat
  /-- A `u<w>` value. -/
  | u (w : Nat)
  /-- A sequence of `u<w>` values: bytes, or the samples of a MagnitudeBuffer. -/
  | seqOf (w : Nat)
  /-- A ThresholdStats record. -/
  | stats
  /-- An Entry. -/
  | entry
deriving DecidableEq, Repr

/-- What BAD_OPERAND records as the value of an operand that is no number where it should be: a sequence, a record or an
entry of the wrong kind, or (none) an operand that is missing. The spec does not state it: a free value (DESIGN CHOICE,
log 27). -/
opaque Config.operandValue : Option Field → Nat

/-- A transaction: the command word `op[7:0]` of format OP8 (30_encoding.md R151) and its fields (R152). -/
structure Request where
  word : BitVec 8
  fields : List Field
deriving DecidableEq, Repr

/-- Where a code may be issued, the column "Port" of 30_encoding.md R153. -/
inductive Port where
  /-- The command port. -/
  | cmd
  /-- An internal agent step, never accepted on the command port. -/
  | step
  /-- A host move. -/
  | host
deriving DecidableEq, Repr

/-- The operations of 30_encoding.md R153, one constructor per row of the opcode map, in the table's order. -/
inductive Instr where
  /-- MAG i, q (40_magnitude.md R200). -/
  | mag (i q : Nat)
  /-- MAGBLK blk (40_magnitude.md R202). -/
  | magblk (blk : List Nat)
  /-- STATS mb (41_threshold.md R231). -/
  | stats (mb : List Nat)
  /-- ABOVE x, st (41_threshold.md R233). -/
  | above (x : Nat) (st : Stats)
  /-- BELOWHALF x, st (41_threshold.md R234). -/
  | belowhalf (x : Nat) (st : Stats)
  /-- PREAMBLE mb, st, i (42_preamble.md R260). -/
  | preamble (mb : List Nat) (st : Stats) (i : Nat)
  /-- PPMBIT mb, j (43_ppm_framer.md R290). -/
  | ppmbit (mb : List Nat) (j : Nat)
  /-- PPMFRAME mb, start, count (43_ppm_framer.md R291). -/
  | ppmframe (mb : List Nat) (first count : Nat)
  /-- CRCSTEP r, b (44_crc24.md R320). -/
  | crcstep (r b : Nat)
  /-- CRCREM buf (44_crc24.md R321). -/
  | crcrem (buf : List Nat)
  /-- CRCCHECK frame (44_crc24.md R322). -/
  | crccheck (frame : List Nat)
  /-- XBITS buf, from, to (45_bitfield_decoder.md R350). -/
  | xbits (buf : List Nat) (lo hi : Nat)
  /-- DFCHECK frame (45_bitfield_decoder.md R352). -/
  | dfcheck (frame : List Nat)
  /-- DECODE frame (45_bitfield_decoder.md R353). -/
  | decode (frame : List Nat)
  /-- PUSH e (46_fifo.md R391). -/
  | push (e : Entry)
  /-- POP (46_fifo.md R392). -/
  | pop
  /-- FIFOSTAT (46_fifo.md R393). -/
  | fifostat
  /-- SCANSTEP mb, st, i (47_pipeline.md R420). -/
  | scanstep (mb : List Nat) (st : Stats) (i : Nat)
  /-- SCAN mb (47_pipeline.md R421). -/
  | scan (mb : List Nat)
  /-- P_POLL (47_pipeline.md R431). -/
  | pPoll
  /-- P_PUSH (47_pipeline.md R434). -/
  | pPush
  /-- P_END (47_pipeline.md R435). -/
  | pEnd
  /-- C_POP (47_pipeline.md R436). -/
  | cPop
  /-- C_SCAN (47_pipeline.md R437). -/
  | cScan
  /-- START (47_pipeline.md R430). -/
  | start
  /-- CO_JOIN_P (47_pipeline.md R438). -/
  | coJoinP
  /-- CO_JOIN_C (47_pipeline.md R439). -/
  | coJoinC
  /-- H_SRC_OK blk (47_pipeline.md R432). -/
  | hSrcOk (blk : List Nat)
  /-- H_SRC_ERR (47_pipeline.md R433). -/
  | hSrcErr
  /-- H_CANCEL (47_pipeline.md R440). -/
  | hCancel
deriving DecidableEq, Repr

end Sys2Proof
end

