-- ==== Sys2Proof/WellFormed.lean ====
section
/-! DEFINITION. When an operation's operands lie within their declared types (30_encoding.md R153, R156). -/

namespace Sys2Proof

/-- Every element is below `2 ^ w`: a sequence of `u<w>` values (00_scope.md R17). -/
def seqBelow (w : Nat) (xs : List Nat) : Bool := xs.all fun x => decide (x < 2 ^ w)

/-- An entry whose samples are `u19` values (10_state.md R58, R73). -/
def Entry.wf : Entry → Bool
  | .data mb => seqBelow 19 mb
  | .endMark => true

/-- Every operand is within the type 30_encoding.md R153 declares for it. -/
def Instr.wf : Instr → Bool
  | .mag i q => decide (i < 2 ^ 8) && decide (q < 2 ^ 8)
  | .magblk blk => seqBelow 8 blk
  | .stats mb => seqBelow 19 mb
  | .above x _ => decide (x < 2 ^ 19)
  | .belowhalf x _ => decide (x < 2 ^ 19)
  | .preamble mb _ _ => seqBelow 19 mb
  | .ppmbit mb _ => seqBelow 19 mb
  | .ppmframe mb _ _ => seqBelow 19 mb
  | .crcstep r b => decide (r < 2 ^ 24) && decide (b < 2 ^ 1)
  | .crcrem buf => seqBelow 8 buf
  | .crccheck frame => seqBelow 8 frame
  | .xbits buf _ _ => seqBelow 8 buf
  | .dfcheck frame => seqBelow 8 frame
  | .decode frame => seqBelow 8 frame
  | .push e => e.wf
  | .pop => true
  | .fifostat => true
  | .scanstep mb _ _ => seqBelow 19 mb
  | .scan mb => seqBelow 19 mb
  | .pPoll => true
  | .pPush => true
  | .pEnd => true
  | .cPop => true
  | .cScan => true
  | .start => true
  | .coJoinP => true
  | .coJoinC => true
  | .hSrcOk blk => seqBelow 8 blk
  | .hSrcErr => true
  | .hCancel => true

end Sys2Proof
end

