-- ==== Sys2Proof/Decode.lean ====
section
/-! DEFINITION. Decoding a transaction (30_encoding.md R150 to R155): the command word selects the operation, the typed
fields beside it are its operands (R152). Then the encoder, from the same table. -/

namespace Sys2Proof

/-- Why a transaction is no operation. -/
inductive DecodeError where
  /-- The code is not in the table of 30_encoding.md R153 (R155). -/
  | unassigned
  /-- The number or kind of the fields is not what R153 lists for the code. -/
  | fieldShape
deriving DecidableEq, Repr

/-- The port of an assigned code, none for an unassigned one (30_encoding.md R153, R155). -/
def portOf (w : BitVec 8) : Option Port :=
  match w with
  | 0x01#8 => some .cmd
  | 0x02#8 => some .cmd
  | 0x08#8 => some .cmd
  | 0x09#8 => some .cmd
  | 0x0A#8 => some .cmd
  | 0x10#8 => some .cmd
  | 0x18#8 => some .cmd
  | 0x19#8 => some .cmd
  | 0x20#8 => some .cmd
  | 0x21#8 => some .cmd
  | 0x22#8 => some .cmd
  | 0x28#8 => some .cmd
  | 0x29#8 => some .cmd
  | 0x2A#8 => some .cmd
  | 0x30#8 => some .cmd
  | 0x31#8 => some .cmd
  | 0x32#8 => some .cmd
  | 0x38#8 => some .cmd
  | 0x39#8 => some .cmd
  | 0x40#8 => some .step
  | 0x41#8 => some .step
  | 0x42#8 => some .step
  | 0x48#8 => some .step
  | 0x49#8 => some .step
  | 0x50#8 => some .host
  | 0x51#8 => some .step
  | 0x52#8 => some .step
  | 0x58#8 => some .host
  | 0x59#8 => some .host
  | 0x5A#8 => some .host
  | _ => none

/-- The declared types of a code's operands, the column "Operands" of 30_encoding.md R153. -/
def operandTypes (w : BitVec 8) : List OperandType :=
  match w with
  | 0x01#8 => [.u 8, .u 8]
  | 0x02#8 => [.seqOf 8]
  | 0x08#8 => [.seqOf 19]
  | 0x09#8 => [.u 19, .stats]
  | 0x0A#8 => [.u 19, .stats]
  | 0x10#8 => [.seqOf 19, .stats, .nat]
  | 0x18#8 => [.seqOf 19, .nat]
  | 0x19#8 => [.seqOf 19, .nat, .nat]
  | 0x20#8 => [.u 24, .u 1]
  | 0x21#8 => [.seqOf 8]
  | 0x22#8 => [.seqOf 8]
  | 0x28#8 => [.seqOf 8, .nat, .nat]
  | 0x29#8 => [.seqOf 8]
  | 0x2A#8 => [.seqOf 8]
  | 0x30#8 => [.entry]
  | 0x38#8 => [.seqOf 19, .stats, .nat]
  | 0x39#8 => [.seqOf 19]
  | 0x58#8 => [.seqOf 8]
  | _ => []

/-- The operation a transaction asks for (30_encoding.md R153): total, and refusing by name. -/
def decode (r : Request) : Except DecodeError Instr :=
  match r.word with
  | 0x01#8 => match r.fields with | [.num i, .num q] => .ok (.mag i q) | _ => .error .fieldShape
  | 0x02#8 => match r.fields with | [.seq blk] => .ok (.magblk blk) | _ => .error .fieldShape
  | 0x08#8 => match r.fields with | [.seq mb] => .ok (.stats mb) | _ => .error .fieldShape
  | 0x09#8 => match r.fields with | [.num x, .stats st] => .ok (.above x st) | _ => .error .fieldShape
  | 0x0A#8 => match r.fields with | [.num x, .stats st] => .ok (.belowhalf x st) | _ => .error .fieldShape
  | 0x10#8 => match r.fields with
    | [.seq mb, .stats st, .num i] => .ok (.preamble mb st i) | _ => .error .fieldShape
  | 0x18#8 => match r.fields with | [.seq mb, .num j] => .ok (.ppmbit mb j) | _ => .error .fieldShape
  | 0x19#8 => match r.fields with
    | [.seq mb, .num first, .num count] => .ok (.ppmframe mb first count) | _ => .error .fieldShape
  | 0x20#8 => match r.fields with | [.num c, .num b] => .ok (.crcstep c b) | _ => .error .fieldShape
  | 0x21#8 => match r.fields with | [.seq buf] => .ok (.crcrem buf) | _ => .error .fieldShape
  | 0x22#8 => match r.fields with | [.seq frame] => .ok (.crccheck frame) | _ => .error .fieldShape
  | 0x28#8 => match r.fields with
    | [.seq buf, .num lo, .num hi] => .ok (.xbits buf lo hi) | _ => .error .fieldShape
  | 0x29#8 => match r.fields with | [.seq frame] => .ok (.dfcheck frame) | _ => .error .fieldShape
  | 0x2A#8 => match r.fields with | [.seq frame] => .ok (.decode frame) | _ => .error .fieldShape
  | 0x30#8 => match r.fields with | [.entry e] => .ok (.push e) | _ => .error .fieldShape
  | 0x31#8 => match r.fields with | [] => .ok .pop | _ => .error .fieldShape
  | 0x32#8 => match r.fields with | [] => .ok .fifostat | _ => .error .fieldShape
  | 0x38#8 => match r.fields with
    | [.seq mb, .stats st, .num i] => .ok (.scanstep mb st i) | _ => .error .fieldShape
  | 0x39#8 => match r.fields with | [.seq mb] => .ok (.scan mb) | _ => .error .fieldShape
  | 0x40#8 => match r.fields with | [] => .ok .pPoll | _ => .error .fieldShape
  | 0x41#8 => match r.fields with | [] => .ok .pPush | _ => .error .fieldShape
  | 0x42#8 => match r.fields with | [] => .ok .pEnd | _ => .error .fieldShape
  | 0x48#8 => match r.fields with | [] => .ok .cPop | _ => .error .fieldShape
  | 0x49#8 => match r.fields with | [] => .ok .cScan | _ => .error .fieldShape
  | 0x50#8 => match r.fields with | [] => .ok .start | _ => .error .fieldShape
  | 0x51#8 => match r.fields with | [] => .ok .coJoinP | _ => .error .fieldShape
  | 0x52#8 => match r.fields with | [] => .ok .coJoinC | _ => .error .fieldShape
  | 0x58#8 => match r.fields with | [.seq blk] => .ok (.hSrcOk blk) | _ => .error .fieldShape
  | 0x59#8 => match r.fields with | [] => .ok .hSrcErr | _ => .error .fieldShape
  | 0x5A#8 => match r.fields with | [] => .ok .hCancel | _ => .error .fieldShape
  | _ => .error .unassigned

/-- The command word of an operation (30_encoding.md R153). -/
def Instr.word : Instr → BitVec 8
  | .mag _ _ => 0x01
  | .magblk _ => 0x02
  | .stats _ => 0x08
  | .above _ _ => 0x09
  | .belowhalf _ _ => 0x0A
  | .preamble _ _ _ => 0x10
  | .ppmbit _ _ => 0x18
  | .ppmframe _ _ _ => 0x19
  | .crcstep _ _ => 0x20
  | .crcrem _ => 0x21
  | .crccheck _ => 0x22
  | .xbits _ _ _ => 0x28
  | .dfcheck _ => 0x29
  | .decode _ => 0x2A
  | .push _ => 0x30
  | .pop => 0x31
  | .fifostat => 0x32
  | .scanstep _ _ _ => 0x38
  | .scan _ => 0x39
  | .pPoll => 0x40
  | .pPush => 0x41
  | .pEnd => 0x42
  | .cPop => 0x48
  | .cScan => 0x49
  | .start => 0x50
  | .coJoinP => 0x51
  | .coJoinC => 0x52
  | .hSrcOk _ => 0x58
  | .hSrcErr => 0x59
  | .hCancel => 0x5A

/-- The typed fields of an operation, in the operand order of 30_encoding.md R153. -/
def Instr.fields : Instr → List Field
  | .mag i q => [.num i, .num q]
  | .magblk blk => [.seq blk]
  | .stats mb => [.seq mb]
  | .above x st => [.num x, .stats st]
  | .belowhalf x st => [.num x, .stats st]
  | .preamble mb st i => [.seq mb, .stats st, .num i]
  | .ppmbit mb j => [.seq mb, .num j]
  | .ppmframe mb first count => [.seq mb, .num first, .num count]
  | .crcstep r b => [.num r, .num b]
  | .crcrem buf => [.seq buf]
  | .crccheck frame => [.seq frame]
  | .xbits buf lo hi => [.seq buf, .num lo, .num hi]
  | .dfcheck frame => [.seq frame]
  | .decode frame => [.seq frame]
  | .push e => [.entry e]
  | .pop => []
  | .fifostat => []
  | .scanstep mb st i => [.seq mb, .stats st, .num i]
  | .scan mb => [.seq mb]
  | .pPoll => []
  | .pPush => []
  | .pEnd => []
  | .cPop => []
  | .cScan => []
  | .start => []
  | .coJoinP => []
  | .coJoinC => []
  | .hSrcOk blk => [.seq blk]
  | .hSrcErr => []
  | .hCancel => []

/-- The transaction of an operation: its command word and its fields (30_encoding.md R151 to R153). -/
def encode (i : Instr) : Request := ⟨i.word, i.fields⟩

/-- The port on which an operation is issued, the column "Port" of 30_encoding.md R153. -/
def Instr.port : Instr → Port
  | .mag _ _ => .cmd
  | .magblk _ => .cmd
  | .stats _ => .cmd
  | .above _ _ => .cmd
  | .belowhalf _ _ => .cmd
  | .preamble _ _ _ => .cmd
  | .ppmbit _ _ => .cmd
  | .ppmframe _ _ _ => .cmd
  | .crcstep _ _ => .cmd
  | .crcrem _ => .cmd
  | .crccheck _ => .cmd
  | .xbits _ _ _ => .cmd
  | .dfcheck _ => .cmd
  | .decode _ => .cmd
  | .push _ => .cmd
  | .pop => .cmd
  | .fifostat => .cmd
  | .scanstep _ _ _ => .cmd
  | .scan _ => .cmd
  | .pPoll => .step
  | .pPush => .step
  | .pEnd => .step
  | .cPop => .step
  | .cScan => .step
  | .start => .host
  | .coJoinP => .step
  | .coJoinC => .step
  | .hSrcOk _ => .host
  | .hSrcErr => .host
  | .hCancel => .host

/-- The group of a command word, `op[7:6]` (30_encoding.md R151). -/
def groupOf (w : BitVec 8) : BitVec 2 := w.extractLsb' 6 2

/-- The unit field of a command word, `op[5:3]` (30_encoding.md R151, R154). -/
def unitOf (w : BitVec 8) : BitVec 3 := w.extractLsb' 3 3

/-- The units and agents the unit field names (30_encoding.md R154). -/
inductive UnitName where
  | magnitudeCalculator | thresholdEstimator | preambleCorrelator | ppmBitFramer | crc24Validator | bitfieldDecoder
  | syncFifo | scanDatapath | producer | consumer | coordinator | host
deriving DecidableEq, Repr

/-- The unit a group and unit field name (30_encoding.md R151, R154). -/
def unitName (w : BitVec 8) : Option UnitName :=
  match groupOf w, unitOf w with
  | 0b00#2, 0b000#3 => some .magnitudeCalculator
  | 0b00#2, 0b001#3 => some .thresholdEstimator
  | 0b00#2, 0b010#3 => some .preambleCorrelator
  | 0b00#2, 0b011#3 => some .ppmBitFramer
  | 0b00#2, 0b100#3 => some .crc24Validator
  | 0b00#2, 0b101#3 => some .bitfieldDecoder
  | 0b00#2, 0b110#3 => some .syncFifo
  | 0b00#2, 0b111#3 => some .scanDatapath
  | 0b01#2, 0b000#3 => some .producer
  | 0b01#2, 0b001#3 => some .consumer
  | 0b01#2, 0b010#3 => some .coordinator
  | 0b01#2, 0b011#3 => some .host
  | _, _ => none

/-- The fields of a code with every field at its zero: the number 0, the empty sequence, the record of zeros, `Data` of
the empty buffer. The opcode table gives operands no bits; this is what "operand words of zeros" are here (DESIGN CHOICE,
log 18). -/
def zeroFields (w : BitVec 8) : List Field :=
  match w with
  | 0x01#8 => [.num 0, .num 0]
  | 0x02#8 => [.seq []]
  | 0x08#8 => [.seq []]
  | 0x09#8 => [.num 0, .stats ⟨0, 0, 0⟩]
  | 0x0A#8 => [.num 0, .stats ⟨0, 0, 0⟩]
  | 0x10#8 => [.seq [], .stats ⟨0, 0, 0⟩, .num 0]
  | 0x18#8 => [.seq [], .num 0]
  | 0x19#8 => [.seq [], .num 0, .num 0]
  | 0x20#8 => [.num 0, .num 0]
  | 0x21#8 => [.seq []]
  | 0x22#8 => [.seq []]
  | 0x28#8 => [.seq [], .num 0, .num 0]
  | 0x29#8 => [.seq []]
  | 0x2A#8 => [.seq []]
  | 0x30#8 => [.entry (.data [])]
  | 0x38#8 => [.seq [], .stats ⟨0, 0, 0⟩, .num 0]
  | 0x39#8 => [.seq []]
  | 0x58#8 => [.seq []]
  | _ => []

/-- The transaction whose command word is the low eight bits of `w` and whose fields are zeros. -/
def tableRequest (w : Nat) : Request := ⟨BitVec.ofNat 8 w, zeroFields (BitVec.ofNat 8 w)⟩

/-- The instruction the decoder reads from a table row's bits, its operand fields zeros. Every command word is one byte
(30_encoding.md R151), so any other number of bits, or a value above a byte, is no command word. -/
def decodeTableWord (nbits w : Nat) : Option Instr :=
  if nbits = 8 ∧ w < 256 then
    match decode (tableRequest w) with
    | .ok i => some i
    | .error _ => none
  else none

/-- The pseudo-operations of 30_encoding.md R161. -/
inductive Pseudo where
  | fDf (f : List Nat)
  | fCa (f : List Nat)
  | fIcao (f : List Nat)
  | fType (f : List Nat)
  | fAlt (f : List Nat)
  | fT (f : List Nat)
  | fF (f : List Nat)
  | fLat (f : List Nat)
  | fLon (f : List Nat)
  | fPi (f : List Nat)
  | frame14 (mb : List Nat) (s : Nat)
  | candidate (mb : List Nat) (st : Stats) (i : Nat)
deriving DecidableEq, Repr

/-- The one operation each pseudo-operation expands to (30_encoding.md R161). -/
def expandPseudo : Pseudo → Instr
  | .fDf f => .xbits f 0 5
  | .fCa f => .xbits f 5 8
  | .fIcao f => .xbits f 8 32
  | .fType f => .xbits f 32 37
  | .fAlt f => .xbits f 40 52
  | .fT f => .xbits f 52 53
  | .fF f => .xbits f 53 54
  | .fLat f => .xbits f 54 71
  | .fLon f => .xbits f 71 88
  | .fPi f => .xbits f 88 112
  | .frame14 mb s => .ppmframe mb s 224
  | .candidate mb st i => .scanstep mb st i

end Sys2Proof
end

