-- ==== Sys2Proof/Machine/State.lean ====
section
/-! DEFINITION. The state of the CORE as plain data: the record `Sys` of 10_state.md R52, the units' internal registers
(R65 to R67), the FIFO ports' outstanding transactions (46_fifo.md R390), the configuration (00_scope.md R13), and the
model's own log of replies and schedule. -/

namespace Sys2Proof.Machine

/-- The fault codes of 60_exceptions.md R475, code 0 (NONE) apart. -/
inductive FaultKind where
  | outOfRangeSample | outOfRangeBit | badSpan | frameLength | badBlock | badCount | illegalOp | badStats | badOperand
  | busy
deriving DecidableEq, Repr

/-- FaultRec (10_state.md R61). -/
structure FaultRec where
  /-- One of the codes of 60_exceptions.md R475. -/
  code : BitVec 4
  /-- The operation code that was issued and raised the fault. -/
  op : BitVec 8
  /-- The offending operand values. -/
  info : List Nat
deriving DecidableEq, Repr

/-- ADSBPacket: each field the right-aligned value of its stream bits (10_state.md R74). -/
structure Packet where
  downlinkFormat : BitVec 5
  capability : BitVec 3
  icaoAddress : BitVec 24
  typeCode : BitVec 5
  altitude : BitVec 12
  timeFlag : BitVec 1
  formatFlag : BitVec 1
  latCpr : BitVec 17
  lonCpr : BitVec 17
deriving DecidableEq, Repr

/-- The coordinator state `co` (10_state.md R53). -/
inductive CoordState where
  /-- `CO_IDLE`. -/
  | idle
  /-- `CO_WAIT_P`. -/
  | waitP
  /-- `CO_WAIT_C`. -/
  | waitC
  /-- `CO_EXITED`. -/
  | exited
deriving DecidableEq, Repr

/-- The producer state `ps` (10_state.md R54). -/
inductive ProdState where
  /-- `P_IDLE`. -/
  | idle
  /-- `P_POLL`. -/
  | poll
  /-- `P_READ`: a read request is outstanding at the sample source. -/
  | read
  /-- `P_PUSH(e)`. -/
  | push (e : Entry)
  /-- `P_STOP`. -/
  | stop
  /-- `P_DONE`. -/
  | done
deriving DecidableEq, Repr

/-- The consumer state `cs` (10_state.md R55). -/
inductive ConsState where
  /-- `C_IDLE`. -/
  | idle
  /-- `C_POP`. -/
  | pop
  /-- `C_SCAN(mb, st, i)`. -/
  | scan (mb : List Nat) (st : Stats) (i : Nat)
  /-- `C_DONE`. -/
  | done
deriving DecidableEq, Repr

/-- The exit status (10_state.md R63); its third value, `none`, is the option's. -/
inductive ExitStatus where
  /-- `OK`. -/
  | ok
  /-- `ACQ_ERROR`. -/
  | acqError
deriving DecidableEq, Repr

/-- The system state record `Sys` (10_state.md R52). -/
structure Sys where
  co : CoordState
  ps : ProdState
  cs : ConsState
  fifo : List Entry
  cancel : Bool
  acqErr : Bool
  fault : Option FaultRec
  out : List Packet
  status : Option ExitStatus
deriving DecidableEq, Repr

/-- The units' internal registers (10_state.md R65 to R67). -/
structure Units where
  /-- `crc_reg` of the crc24_validator. -/
  crcReg : Word24
  /-- `frame` of the ppm_bit_framer. -/
  frame : List Byte
  /-- `N` of the adaptive_threshold_estimator. -/
  n : Nat
  /-- `S1` of the adaptive_threshold_estimator. -/
  s1 : Nat
  /-- `S2` of the adaptive_threshold_estimator. -/
  s2 : Nat
deriving DecidableEq, Repr

/-- The result of a command-port operation (30_encoding.md R153, R157). -/
inductive Result where
  /-- PUSH has no result: the transaction is complete. -/
  | done
  /-- `m: u19` of MAG. -/
  | magnitude (m : Nat)
  /-- `mb` of MAGBLK. -/
  | buffer (mb : List Nat)
  /-- `st` of STATS. -/
  | stats (st : Stats)
  /-- A `u1` result. -/
  | bit (b : Bool)
  /-- `frame` of PPMFRAME. -/
  | frame (bytes : List Byte)
  /-- `r'` of CRCSTEP, `rem` of CRCREM. -/
  | crc (r : Word24)
  /-- `v: u32` of XBITS. -/
  | value (v : Word32)
  /-- `pkt` of DECODE. -/
  | packet (p : Packet)
  /-- `e` of POP. -/
  | entry (e : Entry)
  /-- `count`, `full`, `empty` of FIFOSTAT. -/
  | occupancy (count : Nat) (full empty : Bool)
  /-- `match` and the packet option of SCANSTEP. -/
  | candidate (hit : Bool) (pkt : Option Packet)
  /-- `pkts` of SCAN. -/
  | packets (pkts : List Packet)
deriving DecidableEq, Repr

/-- One reply of the command port: the code of the transaction and its result. -/
structure Reply where
  op : BitVec 8
  result : Result
deriving DecidableEq, Repr

/-- The two blocking ports of the FIFO (46_fifo.md R390). -/
inductive FifoPort where
  | producer
  | consumer
deriving DecidableEq, Repr

/-- What an interleaving may take next (47_pipeline.md R441): the host's transactions and moves, an agent step, the
step of a command-port transaction waiting at a FIFO port (46_fifo.md R394), and reset (70_reset_and_hazards.md R520). -/
inductive Event where
  /-- The host issues a command-port transaction or a host move. -/
  | host (r : Request)
  /-- An agent takes the step of this label. -/
  | agent (w : BitVec 8)
  /-- The transaction waiting at this FIFO port takes its step. -/
  | port (p : FifoPort)
  /-- The host resets the CORE. -/
  | reset
deriving DecidableEq, Repr

/-- The state of the machine. `cfg` is a parameter of the step relation and no field of `Sys` (10_state.md R52); no step
writes it (00_scope.md R13). `replies` and `sched` are the model's own (logs 12 and 3). -/
structure State where
  /-- The configuration record (00_scope.md R13). -/
  cfg : Params
  /-- The system state record (10_state.md R52). -/
  sys : Sys
  /-- The units' internal registers (10_state.md R65 to R67). -/
  units : Units
  /-- The entry of a command-port PUSH blocked on the producer port (46_fifo.md R390, R396). -/
  pushPort : Option Entry
  /-- A command-port POP is blocked on the consumer port (46_fifo.md R390, R396). -/
  popPort : Bool
  /-- The results the command port has delivered since reset, oldest first. -/
  replies : List Reply
  /-- The events still to come, next first. -/
  sched : List Event
deriving DecidableEq, Repr

/-- A step never ends in a fault outcome: the CORE's own faults are data, the field `fault` of `Sys`, and the machine
goes on to a faulted state (60_exceptions.md R474). So this type has no constructor, which is safe (log 22). -/
inductive Fault where
deriving DecidableEq, Repr

/-- Why a step gives no next state. -/
inductive Refusal where
  /-- Raised by `exec` for an instruction without a meaning. Safe. -/
  | notModelled (mnemonic : String)
  /-- Raised when the host presents a host move whose fields do not fit its code (30_encoding.md R152, R153; log 16). A
  command-port transaction raises BAD_OPERAND instead (R156). Safe. -/
  | malformedTransaction
  /-- Raised when the schedule labels an agent step with a code that is no `step` code (30_encoding.md R153). Safe. -/
  | notAnAgentStep
  /-- Raised by H_SRC_OK for a block of another length than BLOCK_BYTES: the host is assumed never to deliver one
  (47_pipeline.md R450, 93_implementation_defined.md I14). Safe. -/
  | hostBlockLength
  /-- Raised by H_SRC_OK and H_SRC_ERR when no read request is outstanding: the host is assumed never to answer then
  (47_pipeline.md R450, 93_implementation_defined.md I14). Safe. -/
  | hostAnswerUnasked
  /-- Raised by START when the pipeline was started already: the host is assumed never to issue it twice without reset
  (47_pipeline.md R450, 93_implementation_defined.md I14). Safe. -/
  | hostSecondStart
  /-- Raised by PUSH or POP on the command port when its FIFO port already carries an outstanding transaction
  (46_fifo.md R390). Safe. -/
  | portOccupied
deriving DecidableEq, Repr

/-- `Sys` after reset (10_state.md R52, 70_reset_and_hazards.md R520). -/
def Sys.reset : Sys where
  co := .idle
  ps := .idle
  cs := .idle
  fifo := []
  cancel := false
  acqErr := false
  fault := none
  out := []
  status := none

/-- The unit registers after reset: unspecified by 70_reset_and_hazards.md R521, here zero (DESIGN CHOICE, log 13). -/
def Units.reset : Units where
  crcReg := 0
  frame := []
  n := 0
  s1 := 0
  s2 := 0

/-- The machine right after reset (70_reset_and_hazards.md R520 to R522), with the configuration of `Config.params`. -/
def State.reset : State where
  cfg := Config.params
  sys := Sys.reset
  units := Units.reset
  pushPort := none
  popPort := false
  replies := []
  sched := []

end Sys2Proof.Machine
end

