-- ==== Sys2Proof/Machine/Ops.lean ====
section
/-! DEFINITION. The constants of 00_scope.md R14, the named updates of the state, raising a fault (60_exceptions.md R474,
the CORE's only "trap entry", R481) and its counterpart reset (70_reset_and_hazards.md R520, the only way out, R482),
replying on the command port, the FIFO's two operations, and reading a buffer. -/

namespace Sys2Proof.Machine

/-- The outcome of a step or a meaning. -/
abbrev Out := Host.Outcome State Fault Refusal

/-! ## Constants (00_scope.md R14) -/

/-- `PRE_LEN`: samples of a preamble window. -/
def preLen : Nat := 16
/-- `PAY_LEN`: samples of a payload. -/
def payLen : Nat := 224
/-- `WIN_LEN` = PRE_LEN + PAY_LEN. -/
def winLen : Nat := preLen + payLen
/-- `HIGH_OFFS`. -/
def highOffs : List Nat := [0, 2, 7, 9]
/-- `LOW_OFFS`. -/
def lowOffs : List Nat := [1, 3, 8]
/-- `THRESH_K`. -/
def threshK : Nat := 2
/-- The denominator of `HALF` = 1/2. -/
def halfDen : Nat := 2
/-- `FRAME_BYTES`. -/
def frameBytes : Nat := 14
/-- `FRAME_BITS`. -/
def frameBits : Nat := 112
/-- `CRC_POLY`. -/
def crcPoly : Word24 := 0xFFF409
/-- `CRC_INIT`. -/
def crcInit : Word24 := 0x000000
/-- `DF_ES`. -/
def dfEs : Word32 := 17
/-- `CPR_SCALE` = 2^17 = 131072. -/
def cprScale : Nat := 131072
/-- `XBITS_MAX`. -/
def xbitsMax : Nat := 32
/-- `MAG_W` (00_scope.md R15). -/
def magW : Nat := 19

/-! ## Updates of one field -/

def State.setCo (s : State) (v : CoordState) : State := { s with sys := { s.sys with co := v } }
def State.setPs (s : State) (v : ProdState) : State := { s with sys := { s.sys with ps := v } }
def State.setCs (s : State) (v : ConsState) : State := { s with sys := { s.sys with cs := v } }
def State.setFifo (s : State) (v : List Entry) : State := { s with sys := { s.sys with fifo := v } }
def State.setCancel (s : State) (v : Bool) : State := { s with sys := { s.sys with cancel := v } }
def State.setAcqErr (s : State) (v : Bool) : State := { s with sys := { s.sys with acqErr := v } }
def State.setFault (s : State) (v : Option FaultRec) : State := { s with sys := { s.sys with fault := v } }
def State.setOut (s : State) (v : List Packet) : State := { s with sys := { s.sys with out := v } }
def State.setStatus (s : State) (v : Option ExitStatus) : State := { s with sys := { s.sys with status := v } }
def State.setUnits (s : State) (v : Units) : State := { s with units := v }
def State.setPushPort (s : State) (v : Option Entry) : State := { s with pushPort := v }
def State.setPopPort (s : State) (v : Bool) : State := { s with popPort := v }
def State.setSched (s : State) (v : List Event) : State := { s with sched := v }

/-- The command port delivers a result (30_encoding.md R157): it joins the log of replies (log 12). -/
def State.addReply (s : State) (op : BitVec 8) (v : Result) : State := { s with replies := s.replies ++ [⟨op, v⟩] }

/-- `emit(pkt)`: append to `out`; it never blocks and never fails (47_pipeline.md R445). -/
def State.emit (s : State) (p : Packet) : State := s.setOut (s.sys.out ++ [p])

/-! ## Raising a fault -/

/-- The code of a fault (60_exceptions.md R475). -/
def FaultKind.code : FaultKind → BitVec 4
  | .outOfRangeSample => 1
  | .outOfRangeBit => 2
  | .badSpan => 3
  | .frameLength => 4
  | .badBlock => 5
  | .badCount => 6
  | .illegalOp => 7
  | .badStats => 8
  | .badOperand => 9
  | .busy => 10

/-- What `raise F(info)` names: the fault and its info (60_exceptions.md R474, R475). -/
structure Raise where
  kind : FaultKind
  info : List Nat
deriving DecidableEq, Repr

/-- `raise F(info)` by the transaction or step of code `op`: the first raised fault is written and nothing else
(60_exceptions.md R474, 10_state.md R61). -/
def State.raise (s : State) (op : BitVec 8) (f : Raise) : State :=
  match s.sys.fault with
  | none => s.setFault (some ⟨f.kind.code, op, f.info⟩)
  | some _ => s

/-- While `fault ≠ none` no step, host move or transaction is enabled (47_pipeline.md R442): the state stays as it is. -/
def whenLive (s : State) (r : Out) : Out :=
  match s.sys.fault with
  | none => r
  | some _ => .next s

/-- The end of an operation of code `op`: its new state, or the raise of its fault (60_exceptions.md R474). -/
def finish (op : BitVec 8) (s : State) (r : Except Raise State) : Out :=
  match r with
  | .ok t => .next t
  | .error f => .next (s.raise op f)

/-- A command-port transaction (30_encoding.md R159): while the CORE is live it replies with the operation's result and
leaves the units' registers as given, or raises. No field of `Sys` but `fault` is written. -/
def command (op : BitVec 8) (s : State) (r : Except Raise (Result × Units)) : Out :=
  whenLive s (finish op s (r.map fun v => (s.setUnits v.2).addReply op v.1))

/-! ## Reset -/

/-- Reset from any state (70_reset_and_hazards.md R520, R523): every field of `Sys` at its reset value, in-flight work
discarded, the configuration kept. The schedule is the environment's and goes on (log 23). -/
def State.afterReset (s : State) : State := { State.reset with cfg := s.cfg, sched := s.sched }

/-! ## The FIFO -/

/-- PUSH on the sequence: append, enabled iff it holds fewer than K entries (46_fifo.md R391). -/
def fifoPush (k : Nat) (q : List Entry) (e : Entry) : Option (List Entry) :=
  if q.length < k then some (q ++ [e]) else none

/-- POP on the sequence: the oldest entry and the rest, enabled iff there is one (46_fifo.md R392). -/
def fifoPop (q : List Entry) : Option (Entry × List Entry) :=
  match q with
  | [] => none
  | e :: rest => some (e, rest)

/-! ## Reading a buffer -/

/-- `MemRead` of a sample. Every operation checks its whole range before it reads, so the read is total
(60_exceptions.md R478, 20_memory.md R101). -/
def rd (mb : List Nat) (i : Nat) : Nat := mb.getD i 0

/-- Stream bit `k` of a byte sequence, `buf⟨k⟩ = buf[k div 8][7 − (k mod 8)]` (00_scope.md R19). -/
def streamBit (buf : List Byte) (k : Nat) : Bool := (buf.getD (k / 8) 0).getLsbD (7 - k % 8)

/-- The stream bits of a byte sequence, in stream order (20_memory.md R106). -/
def streamBits (buf : List Byte) : List Bool := (List.range (8 * buf.length)).map (streamBit buf)

/-- The bytes of a sequence operand, each within `u8` once its operand check has passed (30_encoding.md R156). -/
def toBytes (xs : List Nat) : List Byte := xs.map (BitVec.ofNat 8)

end Sys2Proof.Machine
end

