-- ==== Sys2Proof/Machine/Operands.lean ====
section
/-! DEFINITION. The operand checks of 30_encoding.md R156, for every operand type of R152: a value outside its declared
type raises BAD_OPERAND with the operand's position and the value (60_exceptions.md R475). Operands are checked in
position order, a sequence from element 0 (60_exceptions.md R479). A Nat index or count and a ThresholdStats record are
within their types whatever they hold (10_state.md R73). -/

namespace Sys2Proof.Machine

/-- The raise of BAD_OPERAND (60_exceptions.md R475). -/
def badOperand (pos value : Nat) : Raise := ⟨.badOperand, [pos, value]⟩

/-- A `u<w>` operand at position `pos`. -/
def checkNum (w pos v : Nat) : Except Raise Unit :=
  if v < 2 ^ w then .ok () else .error (badOperand pos v)

/-- A sequence of `u<w>` values at position `pos`: the first element outside the type is reported. -/
def checkSeq (w pos : Nat) (xs : List Nat) : Except Raise Unit :=
  match xs with
  | [] => .ok ()
  | x :: rest => if x < 2 ^ w then checkSeq w pos rest else .error (badOperand pos x)

/-- A MagnitudeBuffer operand: every sample is a `u19` (30_encoding.md R156, 00_scope.md R15). -/
def checkBuffer (pos : Nat) (mb : List Nat) : Except Raise Unit := checkSeq magW pos mb

/-- A byte-sequence operand. -/
def checkBytes (pos : Nat) (xs : List Nat) : Except Raise Unit := checkSeq 8 pos xs

/-- An Entry operand: the samples of a `Data` entry (10_state.md R58, R73). -/
def checkEntry (pos : Nat) (e : Entry) : Except Raise Unit :=
  match e with
  | .data mb => checkBuffer pos mb
  | .endMark => .ok ()

/-- The value BAD_OPERAND records for an operand of the wrong kind: a number is its own value, and of any other operand the
spec states none (log 27). -/
def fieldValue (f : Field) : Nat :=
  match f with
  | .num n => n
  | f => Config.operandValue (some f)

/-- `r` once the check `c` has passed; the check's raise otherwise. -/
def after {α : Type} (c : Except Raise Unit) (r : Except Raise α) : Except Raise α :=
  match c with
  | .ok _ => r
  | .error f => .error f

/-- One operand against its declared type (30_encoding.md R153, R156): first its kind, then its range. -/
def checkField (pos : Nat) (t : OperandType) (f : Field) : Except Raise Unit :=
  match t, f with
  | .nat, .num _ => .ok ()
  | .u w, .num v => checkNum w pos v
  | .seqOf w, .seq xs => checkSeq w pos xs
  | .stats, .stats _ => .ok ()
  | .entry, .entry e => checkEntry pos e
  | _, f => .error (badOperand pos (fieldValue f))

/-- The operands of a transaction against the declared types of its code, from position `pos` on, in position order
(60_exceptions.md R479). A missing operand and one too many are outside the declared types too (log 16). -/
def checkFields (pos : Nat) (ts : List OperandType) (fs : List Field) : Except Raise Unit :=
  match ts, fs with
  | [], [] => .ok ()
  | [], f :: _ => .error (badOperand pos (fieldValue f))
  | _ :: _, [] => .error (badOperand pos (Config.operandValue none))
  | t :: ts, f :: fs => after (checkField pos t f) (checkFields (pos + 1) ts fs)

end Sys2Proof.Machine
end

