-- ==== Sys2Proof/Machine/Flags.lean ====
section
/-! DEFINITION. The one-bit outputs that play the part of flags (10_state.md R70): ABOVE and BELOWHALF in the
integer-exact forms of 41_threshold.md R236, the match bit of PREAMBLE, PPMBIT's bit, and FIFOSTAT's `full` and `empty`.
`df_ok` and `valid` stand with the bit extraction and the CRC they read. None is written as a side effect. -/

namespace Sys2Proof.Machine

/-- `D = N·S2 − S1²` (41_threshold.md R230). -/
def statsD (st : Stats) : Int := (st.n : Int) * st.s2 - (st.s1 : Int) * st.s1

/-- BAD_STATS for N = 0, for N = 1 under SAMPLE, and for `N·S2 < S1²` (41_threshold.md R233). -/
def checkStats (vd : VarDiv) (st : Stats) : Except Raise Unit :=
  if st.n = 0 ∨ (vd = .sample ∧ st.n = 1) ∨ st.n * st.s2 < st.s1 * st.s1 then .error ⟨.badStats, [st.n]⟩
  else .ok ()

/-- `K2 = THRESH_K²` (41_threshold.md R236). -/
def threshK2 : Int := (threshK : Int) * threshK

/-- `x > T(st)`, decided by the integer form of 41_threshold.md R236. -/
def aboveBit (vd : VarDiv) (x : Nat) (st : Stats) : Bool :=
  let a : Int := (st.n : Int) * x - st.s1
  match vd with
  | .pop => decide (0 < a) && decide (threshK2 * statsD st < a * a)
  | .sample => decide (0 < a) && decide (threshK2 * st.n * statsD st < ((st.n : Int) - 1) * (a * a))

/-- `x < HALF·T(st)`, decided by the integer form of 41_threshold.md R236. -/
def belowHalfBit (vd : VarDiv) (x : Nat) (st : Stats) : Bool :=
  let b : Int := (halfDen : Int) * st.n * x - st.s1
  match vd with
  | .pop => decide (b < 0) || decide (b * b < threshK2 * statsD st)
  | .sample => decide (b < 0) || decide (((st.n : Int) - 1) * (b * b) < threshK2 * st.n * statsD st)

/-- The match bit at offset `i`: the high offsets exceed the threshold, the low ones fall below half of it
(42_preamble.md R260). -/
def matchBit (vd : VarDiv) (mb : List Nat) (st : Stats) (i : Nat) : Bool :=
  (highOffs.all fun d => aboveBit vd (rd mb (i + d)) st) && (lowOffs.all fun d => belowHalfBit vd (rd mb (i + d)) st)

/-- One PPM bit: 1 iff the first sample exceeds the second (43_ppm_framer.md R290). -/
def pairBit (mb : List Nat) (j : Nat) : Bool := decide (rd mb (j + 1) < rd mb j)

/-- `full` of FIFOSTAT (46_fifo.md R393). -/
def fullBit (k : Nat) (q : List Entry) : Bool := decide (q.length = k)

/-- `empty` of FIFOSTAT (46_fifo.md R393). -/
def emptyBit (q : List Entry) : Bool := decide (q.length = 0)

end Sys2Proof.Machine
end

