-- ==== Sys2Proof/Machine/Magnitude.lean ====
section
/-! DEFINITION. magnitude_calculator: MAG and MAGBLK (40_magnitude.md). -/

namespace Sys2Proof.Machine

/-- `(2i − C)² + (2q − C)²`, exact (40_magnitude.md R200). -/
def magnitude (c i q : Nat) : Nat :=
  let di : Int := 2 * (i : Int) - c
  let dq : Int := 2 * (q : Int) - c
  (di * di + dq * dq).toNat

/-- The magnitudes of the byte pairs `(2j, 2j + 1)` (40_magnitude.md R202, 20_memory.md R105). -/
def pairMagnitudes (c : Nat) : List Nat → List Nat
  | i :: q :: rest => magnitude c i q :: pairMagnitudes c rest
  | _ => []

/-- MAGBLK: BAD_OPERAND for a byte above 255, BAD_BLOCK for an odd length, else the buffer (40_magnitude.md R202). -/
def magBlock (c : Nat) (blk : List Nat) : Except Raise (List Nat) :=
  after (checkBytes 0 blk)
    (if blk.length % 2 ≠ 0 then .error ⟨.badBlock, [blk.length]⟩ else .ok (pairMagnitudes c blk))

/-- MAG (40_magnitude.md R200). -/
def execMag (i q : Nat) (s : State) : Out :=
  command 0x01 s (after (checkNum 8 0 i) (after (checkNum 8 1 q) (.ok (.magnitude (magnitude s.cfg.c i q), s.units))))

/-- MAGBLK (40_magnitude.md R202). -/
def execMagblk (blk : List Nat) (s : State) : Out :=
  command 0x02 s ((magBlock s.cfg.c blk).map fun mb => (.buffer mb, s.units))

end Sys2Proof.Machine
end

