-- ==== Sys2Proof/Machine/Threshold.lean ====
section
/-! DEFINITION. adaptive_threshold_estimator: STATS, ABOVE and BELOWHALF (41_threshold.md). -/

namespace Sys2Proof.Machine

/-- One round of STATS' loop: `N <- N + 1; S1 <- S1 + x; S2 <- S2 + x·x` (41_threshold.md R231). -/
def accumulate (st : Stats) (x : Nat) : Stats := ⟨st.n + 1, st.s1 + x, st.s2 + x * x⟩

/-- The accumulators over a whole buffer (41_threshold.md R231). -/
def statsOf (mb : List Nat) : Stats := mb.foldl accumulate ⟨0, 0, 0⟩

/-- STATS: BAD_STATS for the empty buffer and for one element under SAMPLE (41_threshold.md R231). -/
def bufferStats (vd : VarDiv) (mb : List Nat) : Except Raise Stats :=
  if mb.length = 0 then .error ⟨.badStats, [0]⟩
  else if vd = .sample ∧ mb.length = 1 then .error ⟨.badStats, [1]⟩
  else .ok (statsOf mb)

/-- The accumulators `N`, `S1`, `S2` hold their final values after STATS (10_state.md R67). -/
def Units.withStats (u : Units) (st : Stats) : Units := { u with n := st.n, s1 := st.s1, s2 := st.s2 }

/-- STATS (41_threshold.md R231). -/
def execStats (mb : List Nat) (s : State) : Out :=
  command 0x08 s (after (checkBuffer 0 mb)
    ((bufferStats s.cfg.varDiv mb).map fun st => (.stats st, s.units.withStats st)))

/-- ABOVE (41_threshold.md R233). -/
def execAbove (x : Nat) (st : Stats) (s : State) : Out :=
  command 0x09 s (after (checkNum magW 0 x) (after (checkStats s.cfg.varDiv st)
    (.ok (.bit (aboveBit s.cfg.varDiv x st), s.units))))

/-- BELOWHALF (41_threshold.md R234). -/
def execBelowhalf (x : Nat) (st : Stats) (s : State) : Out :=
  command 0x0A s (after (checkNum magW 0 x) (after (checkStats s.cfg.varDiv st)
    (.ok (.bit (belowHalfBit s.cfg.varDiv x st), s.units))))

end Sys2Proof.Machine
end

