-- ==== Sys2Proof/Machine/Preamble.lean ====
section
/-! DEFINITION. preamble_correlator: PREAMBLE (42_preamble.md). -/

namespace Sys2Proof.Machine

/-- PREAMBLE at offset `i`: the window must fit, then the first ABOVE checks `st`, then the seven comparisons
(42_preamble.md R260, 60_exceptions.md R479). -/
def preamble (vd : VarDiv) (mb : List Nat) (st : Stats) (i : Nat) : Except Raise Bool :=
  if mb.length < i + preLen then .error ⟨.outOfRangeSample, [i + preLen - 1, mb.length]⟩
  else after (checkStats vd st) (.ok (matchBit vd mb st i))

/-- PREAMBLE (42_preamble.md R260). -/
def execPreamble (mb : List Nat) (st : Stats) (i : Nat) (s : State) : Out :=
  command 0x10 s (after (checkBuffer 0 mb)
    ((preamble s.cfg.varDiv mb st i).map fun b => (.bit b, s.units)))

end Sys2Proof.Machine
end

