-- ==== Sys2Proof/Machine/Ppm.lean ====
section
/-! DEFINITION. ppm_bit_framer: PPMBIT and PPMFRAME (43_ppm_framer.md). -/

namespace Sys2Proof.Machine

/-- PPMBIT: the pair must fit (43_ppm_framer.md R290). -/
def ppmBit (mb : List Nat) (j : Nat) : Except Raise Bool :=
  if mb.length ≤ j + 1 then .error ⟨.outOfRangeSample, [j + 1, mb.length]⟩ else .ok (pairBit mb j)

/-- One round of PPMFRAME's walk: when pair `k` gives 1, set value bit `7 − (k mod 8)` of byte `k div 8`
(43_ppm_framer.md R291, R292). -/
def setPairBit (mb : List Nat) (start : Nat) (frame : List Byte) (k : Nat) : List Byte :=
  if pairBit mb (start + 2 * k) then frame.modify (k / 8) (fun b => b ||| ((1#8) <<< (7 - k % 8))) else frame

/-- The frame of a walk of `count` samples from `start`: all bytes 0x00, then one bit per pair (43_ppm_framer.md R291). -/
def walkFrame (mb : List Nat) (start count : Nat) : List Byte :=
  (List.range (count / 2)).foldl (setPairBit mb start) (List.replicate (count / 16) 0x00)

/-- PPMFRAME: BAD_COUNT unless the count is a positive multiple of 16, then the walk must fit (43_ppm_framer.md R291). -/
def ppmFrame (mb : List Nat) (start count : Nat) : Except Raise (List Byte) :=
  if count = 0 ∨ count % 16 ≠ 0 then .error ⟨.badCount, [count]⟩
  else if mb.length < start + count then .error ⟨.outOfRangeSample, [start + count - 1, mb.length]⟩
  else .ok (walkFrame mb start count)

/-- PPMBIT (43_ppm_framer.md R290). -/
def execPpmbit (mb : List Nat) (j : Nat) (s : State) : Out :=
  command 0x18 s (after (checkBuffer 0 mb) ((ppmBit mb j).map fun b => (.bit b, s.units)))

/-- PPMFRAME (43_ppm_framer.md R291); the framer's register `frame` keeps the frame (10_state.md R66). -/
def execPpmframe (mb : List Nat) (first count : Nat) (s : State) : Out :=
  command 0x19 s (after (checkBuffer 0 mb)
    ((ppmFrame mb first count).map fun f => (.frame f, { s.units with frame := f })))

end Sys2Proof.Machine
end

