-- ==== Sys2Proof/Machine/Crc.lean ====
section
/-! DEFINITION. crc24_validator: CRCSTEP, CRCREM and CRCCHECK (44_crc24.md). -/

namespace Sys2Proof.Machine

/-- One bit of the shift register: shift left, OR in the bit, mask to 24 bits, and XOR the generator when the bit
shifted out was 1 (44_crc24.md R320). -/
def crcStep (r : Word24) (b : Bool) : Word24 :=
  let shifted : Word24 := (r <<< 1) ||| (if b then 1 else 0)
  if r.getLsbD 23 then shifted ^^^ crcPoly else shifted

/-- The remainder over a byte sequence, in stream order from `CRC_INIT` (44_crc24.md R321). -/
def crcRem (buf : List Byte) : Word24 := (streamBits buf).foldl crcStep crcInit

/-- CRCCHECK: FRAME_LENGTH unless the frame has 14 bytes, else whether the remainder is zero (44_crc24.md R322). -/
def crcCheck (frame : List Byte) : Except Raise Bool :=
  if frame.length ≠ frameBytes then .error ⟨.frameLength, [frame.length]⟩ else .ok (decide (crcRem frame = 0))

/-- CRCSTEP (44_crc24.md R320). It computes from its operands; the register `crc_reg` is CRCREM's (log 14). -/
def execCrcstep (r b : Nat) (s : State) : Out :=
  command 0x20 s (after (checkNum 24 0 r) (after (checkNum 1 1 b)
    (.ok (.crc (crcStep (BitVec.ofNat 24 r) (decide (b = 1))), s.units))))

/-- CRCREM (44_crc24.md R321); `crc_reg` holds the remainder at the end (10_state.md R65). -/
def execCrcrem (buf : List Nat) (s : State) : Out :=
  command 0x21 s (after (checkBytes 0 buf)
    (.ok (.crc (crcRem (toBytes buf)), { s.units with crcReg := crcRem (toBytes buf) })))

/-- CRCCHECK (44_crc24.md R322); it runs CRCREM, so `crc_reg` holds the remainder at the end. -/
def execCrccheck (frame : List Nat) (s : State) : Out :=
  command 0x22 s (after (checkBytes 0 frame)
    ((crcCheck (toBytes frame)).map fun v => (.bit v, { s.units with crcReg := crcRem (toBytes frame) })))

end Sys2Proof.Machine
end

