-- ==== Sys2Proof/Machine/Bits.lean ====
section
/-! DEFINITION. bitfield_decoder: XBITS, DFCHECK and DECODE (45_bitfield_decoder.md). -/

namespace Sys2Proof.Machine

/-- The stream bits `[lo, hi)` shifted in one by one, most significant first (45_bitfield_decoder.md R350). -/
def bitRange (buf : List Byte) (lo hi : Nat) : Word32 :=
  (List.range (hi - lo)).foldl (fun v j => (v <<< 1) ||| (if streamBit buf (lo + j) then 1 else 0)) 0

/-- XBITS: BAD_SPAN for an empty, reversed or too wide range, then OUT_OF_RANGE_BIT past the buffer
(45_bitfield_decoder.md R350). -/
def extractBits (buf : List Byte) (lo hi : Nat) : Except Raise Word32 :=
  if ¬ lo < hi ∨ xbitsMax < hi - lo then .error ⟨.badSpan, [lo, hi]⟩
  else if 8 * buf.length < hi then .error ⟨.outOfRangeBit, [hi, 8 * buf.length]⟩
  else .ok (bitRange buf lo hi)

/-- DFCHECK: FRAME_LENGTH unless the frame has 14 bytes, else whether its first five bits are 17
(45_bitfield_decoder.md R352). -/
def dfCheck (frame : List Byte) : Except Raise Bool :=
  if frame.length ≠ frameBytes then .error ⟨.frameLength, [frame.length]⟩ else .ok (decide (bitRange frame 0 5 = dfEs))

/-- The packet of a frame: the fixed bit ranges of 45_bitfield_decoder.md R351, whatever its type code (R355). -/
def packetOf (frame : List Byte) : Packet where
  downlinkFormat := (bitRange frame 0 5).setWidth 5
  capability := (bitRange frame 5 8).setWidth 3
  icaoAddress := (bitRange frame 8 32).setWidth 24
  typeCode := (bitRange frame 32 37).setWidth 5
  altitude := (bitRange frame 40 52).setWidth 12
  timeFlag := (bitRange frame 52 53).setWidth 1
  formatFlag := (bitRange frame 53 54).setWidth 1
  latCpr := (bitRange frame 54 71).setWidth 17
  lonCpr := (bitRange frame 71 88).setWidth 17

/-- The normalized value of a CPR field, the exact rational `v / 2^17` (45_bitfield_decoder.md R354, 10_state.md R74). The
packet holds the integer, and this reads it. -/
def cprFraction (v : BitVec 17) : Rat := mkRat v.toNat cprScale

/-- DECODE: FRAME_LENGTH unless the frame has 14 bytes, else its packet (45_bitfield_decoder.md R353). -/
def decodeFrame (frame : List Byte) : Except Raise Packet :=
  if frame.length ≠ frameBytes then .error ⟨.frameLength, [frame.length]⟩ else .ok (packetOf frame)

/-- XBITS (45_bitfield_decoder.md R350). -/
def execXbits (buf : List Nat) (lo hi : Nat) (s : State) : Out :=
  command 0x28 s (after (checkBytes 0 buf) ((extractBits (toBytes buf) lo hi).map fun v => (.value v, s.units)))

/-- DFCHECK (45_bitfield_decoder.md R352). -/
def execDfcheck (frame : List Nat) (s : State) : Out :=
  command 0x29 s (after (checkBytes 0 frame) ((dfCheck (toBytes frame)).map fun b => (.bit b, s.units)))

/-- DECODE (45_bitfield_decoder.md R353). -/
def execDecode (frame : List Nat) (s : State) : Out :=
  command 0x2A s (after (checkBytes 0 frame) ((decodeFrame (toBytes frame)).map fun p => (.packet p, s.units)))

end Sys2Proof.Machine
end

