-- ==== Sys2Proof/Machine/Fifo.lean ====
section
/-! DEFINITION. sync_fifo on the command port: PUSH, POP and FIFOSTAT (46_fifo.md), and the step of a transaction that
waits at a FIFO port. PUSH and POP may be issued only while the pipeline is idle (46_fifo.md R396). -/

namespace Sys2Proof.Machine

/-- The raise of BUSY (60_exceptions.md R475). -/
def busyRaise (op : BitVec 8) : Raise := ⟨.busy, [op.toNat]⟩

/-- PUSH on the command port (46_fifo.md R391, R396): BAD_OPERAND, then BUSY while the pipeline runs; then the entry is
appended, or the transaction stays blocked at the producer port. -/
def execPush (e : Entry) (s : State) : Out :=
  whenLive s (
    match checkEntry 0 e with
    | .error f => .next (s.raise 0x30 f)
    | .ok _ =>
      if s.sys.co ≠ .idle then .next (s.raise 0x30 (busyRaise 0x30))
      else if s.pushPort.isSome then .refused .portOccupied
      else match fifoPush s.cfg.k s.sys.fifo e with
        | some q => .next ((s.setFifo q).addReply 0x30 .done)
        | none => .next (s.setPushPort (some e)))

/-- POP on the command port (46_fifo.md R392, R396): BUSY while the pipeline runs; then the oldest entry is removed and
returned, or the transaction stays blocked at the consumer port. -/
def execPop (s : State) : Out :=
  whenLive s (
    if s.sys.co ≠ .idle then .next (s.raise 0x31 (busyRaise 0x31))
    else if s.popPort then .refused .portOccupied
    else match fifoPop s.sys.fifo with
      | some (e, q) => .next ((s.setFifo q).addReply 0x31 (.entry e))
      | none => .next (s.setPopPort true))

/-- FIFOSTAT (46_fifo.md R393); not accepted while the CORE is faulted (log 21). -/
def execFifostat (s : State) : Out :=
  command 0x32 s (.ok (.occupancy s.sys.fifo.length (fullBit s.cfg.k s.sys.fifo) (emptyBit s.sys.fifo), s.units))

/-- The transaction waiting at a FIFO port takes its step when it is enabled (46_fifo.md R394). After START no
command-port PUSH or POP takes effect (10_state.md R76), so it then waits until reset (log 10). -/
def fifoPortStep (p : FifoPort) (s : State) : Out :=
  whenLive s (
    if s.sys.co ≠ .idle then .next s
    else match p with
      | .producer =>
        match s.pushPort with
        | none => .next s
        | some e =>
          match fifoPush s.cfg.k s.sys.fifo e with
          | some q => .next (((s.setPushPort none).setFifo q).addReply 0x30 .done)
          | none => .next s
      | .consumer =>
        match s.popPort, fifoPop s.sys.fifo with
        | true, some (e, q) => .next (((s.setPopPort false).setFifo q).addReply 0x31 (.entry e))
        | _, _ => .next s)

end Sys2Proof.Machine
end

