-- ==== Sys2Proof/Machine/Scan.lean ====
section
/-! DEFINITION. The consumer's scan datapath: SCANSTEP and SCAN (47_pipeline.md). -/

namespace Sys2Proof.Machine

/-- The packet of a candidate frame: some when the downlink format is 17 and the CRC holds, none otherwise
(FrameRejected, 60_exceptions.md R476). Both checks are evaluated (47_pipeline.md R420). -/
def acceptFrame (frame : List Byte) : Except Raise (Option Packet) := do
  let df ← dfCheck frame
  let valid ← crcCheck frame
  if df && valid then
    let p ← decodeFrame frame
    return some p
  else return none

/-- SCANSTEP at offset `i` (47_pipeline.md R420). -/
def scanStep (vd : VarDiv) (mb : List Nat) (st : Stats) (i : Nat) : Except Raise (Bool × Option Packet) :=
  if mb.length < i + winLen then .error ⟨.outOfRangeSample, [i + winLen - 1, mb.length]⟩
  else do
    let hit ← preamble vd mb st i
    if hit then
      let frame ← ppmFrame mb (i + preLen) payLen
      let p ← acceptFrame frame
      return (true, p)
    else return (false, none)

/-- The units' registers after SCANSTEP: on a match PPMFRAME wrote `frame` and CRCCHECK `crc_reg` (10_state.md R65,
R66). -/
def Units.afterScanStep (u : Units) (vd : VarDiv) (mb : List Nat) (st : Stats) (i : Nat) : Units :=
  match preamble vd mb st i with
  | .ok true => { u with frame := walkFrame mb (i + preLen) payLen, crcReg := crcRem (walkFrame mb (i + preLen) payLen) }
  | _ => u

/-- The loop of SCAN from offset `i`, `rounds` candidates long: the packets in increasing `i` (47_pipeline.md R421,
R422). -/
def scanFrom (vd : VarDiv) (mb : List Nat) (st : Stats) : Nat → Nat → Except Raise (List Packet)
  | 0, _ => .ok []
  | rounds + 1, i => do
    let r ← scanStep vd mb st i
    let rest ← scanFrom vd mb st rounds (i + 1)
    return r.2.toList ++ rest

/-- The units' registers after that loop. -/
def Units.afterScanFrom (u : Units) (vd : VarDiv) (mb : List Nat) (st : Stats) : Nat → Nat → Units
  | 0, _ => u
  | rounds + 1, i => (u.afterScanStep vd mb st i).afterScanFrom vd mb st rounds (i + 1)

/-- SCAN: a buffer shorter than the window is skipped (MalformedScan), else every `i` with `i + 240 ≤ |mb|` is tested,
with the statistics computed once (47_pipeline.md R421). -/
def scanBuffer (vd : VarDiv) (mb : List Nat) : Except Raise (List Packet) :=
  if mb.length < winLen then .ok []
  else do
    let st ← bufferStats vd mb
    scanFrom vd mb st (mb.length - winLen + 1) 0

/-- The units' registers after SCAN. -/
def Units.afterScan (u : Units) (vd : VarDiv) (mb : List Nat) : Units :=
  if mb.length < winLen then u
  else (u.withStats (statsOf mb)).afterScanFrom vd mb (statsOf mb) (mb.length - winLen + 1) 0

/-- SCANSTEP (47_pipeline.md R420). -/
def execScanstep (mb : List Nat) (st : Stats) (i : Nat) (s : State) : Out :=
  command 0x38 s (after (checkBuffer 0 mb)
    ((scanStep s.cfg.varDiv mb st i).map fun r =>
      (.candidate r.1 r.2, s.units.afterScanStep s.cfg.varDiv mb st i)))

/-- SCAN (47_pipeline.md R421). -/
def execScan (mb : List Nat) (s : State) : Out :=
  command 0x39 s (after (checkBuffer 0 mb)
    ((scanBuffer s.cfg.varDiv mb).map fun pkts => (.packets pkts, s.units.afterScan s.cfg.varDiv mb)))

end Sys2Proof.Machine
end

