-- ==== Sys2Proof/Machine/Producer.lean ====
section
/-! DEFINITION. The producer's steps P_POLL, P_PUSH and P_END (47_pipeline.md R431, R434, R435). A step that is not
enabled is not taken: the producer waits and the state stays as it is (46_fifo.md R394, 60_exceptions.md R489). -/

namespace Sys2Proof.Machine

/-- P_POLL: stop when cancellation is raised, else issue the read request (47_pipeline.md R431). -/
def execPPoll (s : State) : Out :=
  whenLive s (
    match s.sys.ps with
    | .poll => .next (s.setPs (if s.sys.cancel then .stop else .read))
    | _ => .next s)

/-- P_PUSH: push the held entry; blocked while the FIFO is full (47_pipeline.md R434). -/
def execPPush (s : State) : Out :=
  whenLive s (
    match s.sys.ps with
    | .push e =>
      match fifoPush s.cfg.k s.sys.fifo e with
      | some q => .next ((s.setFifo q).setPs .poll)
      | none => .next s
    | _ => .next s)

/-- P_END: push the terminating marker and exit; blocked while the FIFO is full (47_pipeline.md R435). -/
def execPEnd (s : State) : Out :=
  whenLive s (
    match s.sys.ps with
    | .stop =>
      match fifoPush s.cfg.k s.sys.fifo .endMark with
      | some q => .next ((s.setFifo q).setPs .done)
      | none => .next s
    | _ => .next s)

end Sys2Proof.Machine
end

