-- ==== Sys2Proof/Machine/Consumer.lean ====
section
/-! DEFINITION. The consumer's steps C_POP and C_SCAN (47_pipeline.md R436, R437). A step that is not enabled is not
taken: the consumer waits and the state stays as it is (46_fifo.md R394, 60_exceptions.md R489). -/

namespace Sys2Proof.Machine

/-- What C_POP does with the entry it popped: End is terminal, a short buffer is skipped, any other is scanned from
offset 0 with its statistics (47_pipeline.md R436). -/
def takeEntry (e : Entry) (s : State) : Except Raise State :=
  match e with
  | .endMark => .ok (s.setCs .done)
  | .data mb =>
    if mb.length < winLen then .ok (s.setCs .pop)
    else (bufferStats s.cfg.varDiv mb).map fun st =>
      (s.setUnits (s.units.withStats st)).setCs (.scan mb st 0)

/-- C_POP: pop one entry; blocked while the FIFO is empty (47_pipeline.md R436). -/
def execCPop (s : State) : Out :=
  whenLive s (
    match s.sys.cs with
    | .pop =>
      match fifoPop s.sys.fifo with
      | some (e, q) => finish 0x48 s (takeEntry e (s.setFifo q))
      | none => .next s
    | _ => .next s)

/-- Emit the packet of a candidate, if it has one (47_pipeline.md R437, R445). -/
def State.emitOption (s : State) (p : Option Packet) : State :=
  match p with
  | some pkt => s.emit pkt
  | none => s

/-- C_SCAN: test one candidate, emit what it accepts and go on at `i + 1`; at the buffer's end return to C_POP
(47_pipeline.md R437). -/
def execCScan (s : State) : Out :=
  whenLive s (
    match s.sys.cs with
    | .scan mb st i =>
      if i + winLen ≤ mb.length then
        finish 0x49 s ((scanStep s.cfg.varDiv mb st i).map fun r =>
          ((s.setUnits (s.units.afterScanStep s.cfg.varDiv mb st i)).emitOption r.2).setCs (.scan mb st (i + 1)))
      else .next (s.setCs .pop)
    | _ => .next s)

end Sys2Proof.Machine
end

