-- ==== Sys2Proof/Machine/Coordinator.lean ====
section
/-! DEFINITION. The coordinator: START, CO_JOIN_P and CO_JOIN_C (47_pipeline.md R430, R438, R439). A join that is not
enabled is not taken: the coordinator waits (60_exceptions.md R489). -/

namespace Sys2Proof.Machine

/-- START: start both sides; BUSY when the FIFO is not empty (47_pipeline.md R430). A second START without reset is a
host behaviour the spec assumes never (47_pipeline.md R450): refused by name. -/
def execStart (s : State) : Out :=
  whenLive s (
    if s.sys.co ≠ .idle then .refused .hostSecondStart
    else match s.sys.fifo with
      | [] => .next (((s.setCo .waitP).setPs .poll).setCs .pop)
      | _ :: _ => .next (s.raise 0x50 (busyRaise 0x50)))

/-- CO_JOIN_P: the coordinator sees the producer finish (47_pipeline.md R438). -/
def execCoJoinP (s : State) : Out :=
  whenLive s (
    match s.sys.co, s.sys.ps with
    | .waitP, .done => .next (s.setCo .waitC)
    | _, _ => .next s)

/-- CO_JOIN_C: the coordinator sees the consumer finish and writes the status (47_pipeline.md R439). -/
def execCoJoinC (s : State) : Out :=
  whenLive s (
    match s.sys.co, s.sys.cs with
    | .waitC, .done => .next ((s.setStatus (some (if s.sys.acqErr then .acqError else .ok))).setCo .exited)
    | _, _ => .next s)

/-- The process status the host reports: ACQ_ERROR is `ACQ_EXIT_CODE`, OK is 0 (10_state.md R63). -/
def State.processStatus (s : State) : Option Int :=
  match s.sys.status with
  | some .acqError => some s.cfg.acqExitCode
  | some .ok => some 0
  | none => none

end Sys2Proof.Machine
end

