-- ==== Sys2Proof/Machine/HostMoves.lean ====
section
/-! DEFINITION. The host moves H_SRC_OK, H_SRC_ERR and H_CANCEL (47_pipeline.md R432, R433, R440). Host behaviours the
spec assumes never have no move (47_pipeline.md R450, 93_implementation_defined.md I14): they are refused by name. -/

namespace Sys2Proof.Machine

/-- The source request `rd_req` is outstanding exactly while `ps = P_READ` (10_state.md R54, 30_encoding.md R157). -/
def State.readRequested (s : State) : Bool :=
  match s.sys.ps with
  | .read => true
  | _ => false

/-- H_SRC_OK: the source delivers a block of BLOCK_BYTES bytes and the producer computes its magnitudes
(47_pipeline.md R432). A byte above 255 raises BAD_OPERAND as MAGBLK does (log 19). -/
def execHSrcOk (blk : List Nat) (s : State) : Out :=
  whenLive s (
    if s.readRequested then
      if blk.length = s.cfg.blockBytes then
        finish 0x58 s ((magBlock s.cfg.c blk).map fun mb => s.setPs (.push (.data mb)))
      else .refused .hostBlockLength
    else .refused .hostAnswerUnasked)

/-- H_SRC_ERR: the source fails; AcquisitionError is no fault (47_pipeline.md R433, 60_exceptions.md R472). -/
def execHSrcErr (s : State) : Out :=
  whenLive s (
    if s.readRequested then .next ((s.setAcqErr true).setPs .stop)
    else .refused .hostAnswerUnasked)

/-- H_CANCEL: the host raises cancellation (47_pipeline.md R440). -/
def execHCancel (s : State) : Out :=
  whenLive s (.next (s.setCancel true))

end Sys2Proof.Machine
end

