-- ==== Sys2Proof/Machine/Dispatch.lean ====
section
/-! DEFINITION. The dispatch of an operation to its meaning, one arm per constructor. -/

namespace Sys2Proof.Machine

def exec (i : Instr) (s : State) : Host.Outcome State Fault Refusal :=
  match i with
  | .mag i1 q => Sys2Proof.Machine.execMag i1 q s
  | .magblk blk => Sys2Proof.Machine.execMagblk blk s
  | .stats mb => Sys2Proof.Machine.execStats mb s
  | .above x st => Sys2Proof.Machine.execAbove x st s
  | .belowhalf x st => Sys2Proof.Machine.execBelowhalf x st s
  | .preamble mb st j => Sys2Proof.Machine.execPreamble mb st j s
  | .ppmbit mb j => Sys2Proof.Machine.execPpmbit mb j s
  | .ppmframe mb first count => Sys2Proof.Machine.execPpmframe mb first count s
  | .crcstep r b => Sys2Proof.Machine.execCrcstep r b s
  | .crcrem buf => Sys2Proof.Machine.execCrcrem buf s
  | .crccheck frame => Sys2Proof.Machine.execCrccheck frame s
  | .xbits buf lo hi => Sys2Proof.Machine.execXbits buf lo hi s
  | .dfcheck frame => Sys2Proof.Machine.execDfcheck frame s
  | .decode frame => Sys2Proof.Machine.execDecode frame s
  | .push e => Sys2Proof.Machine.execPush e s
  | .pop => Sys2Proof.Machine.execPop s
  | .fifostat => Sys2Proof.Machine.execFifostat s
  | .scanstep mb st j => Sys2Proof.Machine.execScanstep mb st j s
  | .scan mb => Sys2Proof.Machine.execScan mb s
  | .pPoll => Sys2Proof.Machine.execPPoll s
  | .pPush => Sys2Proof.Machine.execPPush s
  | .pEnd => Sys2Proof.Machine.execPEnd s
  | .cPop => Sys2Proof.Machine.execCPop s
  | .cScan => Sys2Proof.Machine.execCScan s
  | .start => Sys2Proof.Machine.execStart s
  | .coJoinP => Sys2Proof.Machine.execCoJoinP s
  | .coJoinC => Sys2Proof.Machine.execCoJoinC s
  | .hSrcOk blk => Sys2Proof.Machine.execHSrcOk blk s
  | .hSrcErr => Sys2Proof.Machine.execHSrcErr s
  | .hCancel => Sys2Proof.Machine.execHCancel s

end Sys2Proof.Machine
end

