-- ==== Sys2Proof/Machine/Fetch.lean ====
section
/-! DEFINITION. Taking one event of the interleaving (47_pipeline.md R441). The CORE fetches no program (20_memory.md
R118): what comes next is a transaction, a host move, an agent step, the step of a waiting transaction, or reset. -/

namespace Sys2Proof.Machine

/-- The raise of ILLEGAL_OP (60_exceptions.md R475). -/
def illegalOp (w : BitVec 8) : Raise := ⟨.illegalOp, [w.toNat]⟩

/-- A command-port transaction that is no operation because a field is missing, surplus or of the wrong kind: it raises
BAD_OPERAND for its first operand outside its declared type (30_encoding.md R156; logs 16 and 27). One of the fields is
(`checkFields_error_of_decode_error`), so the refusal stands for no transaction. -/
def takeMisfit (r : Request) (s : State) : Out :=
  match checkFields 0 (operandTypes r.word) r.fields with
  | .error f => .next (s.raise r.word f)
  | .ok _ => .refused .malformedTransaction

/-- The host issues a transaction or a host move. An unassigned code and a `step` code raise ILLEGAL_OP (30_encoding.md
R155), before any look at the fields (60_exceptions.md R479). Fields that do not fit a host move's code are no host move
(log 16). -/
def takeHost (r : Request) (s : State) : Out :=
  whenLive s (
    match portOf r.word, decode r with
    | none, _ => .next (s.raise r.word (illegalOp r.word))
    | some .step, _ => .next (s.raise r.word (illegalOp r.word))
    | some .cmd, .ok i => exec i s
    | some .cmd, .error _ => takeMisfit r s
    | some .host, .ok i => exec i s
    | some .host, .error _ => .refused .malformedTransaction)

/-- An agent takes the step labelled `w` (30_encoding.md R150). Only a `step` code labels one (log 17). -/
def takeAgent (w : BitVec 8) (s : State) : Out :=
  match portOf w, decode ⟨w, []⟩ with
  | some .step, .ok i => exec i s
  | _, _ => .refused .notAnAgentStep

/-- One event. -/
def takeEvent (ev : Event) (s : State) : Out :=
  match ev with
  | .host r => takeHost r s
  | .agent w => takeAgent w s
  | .port p => fifoPortStep p s
  | .reset => .next s.afterReset

/-- The next event, removed from the schedule; with none scheduled nothing moves (log 4). -/
def takeNext (s : State) : Out :=
  match s.sched with
  | [] => .next s
  | ev :: rest => takeEvent ev (s.setSched rest)

/-- The event that issues the command word in the low eight bits of `w`, its fields zeros: the agent's step for a `step`
code, the host's transaction or move otherwise (logs 5 and 18). -/
def eventOfWord (w : Nat) : Event :=
  match portOf (BitVec.ofNat 8 w) with
  | some .step => .agent (BitVec.ofNat 8 w)
  | _ => .host (tableRequest w)

end Sys2Proof.Machine
end

