-- ==== Sys2Proof/Machine/Step.lean ====
section
/-! DEFINITION. One step of the machine: the next event of the interleaving (47_pipeline.md R441). -/

namespace Sys2Proof.Machine

/-- One step. -/
def step (s : State) : Host.Outcome State Fault Refusal := takeNext s

/-- `s` with the table word `w` issued next. The CORE fetches no program (20_memory.md R118): the word stands at the head
of the schedule (log 5). Every command word has eight bits (30_encoding.md R151), so `nbits` selects nothing. -/
def State.withFetchWord (s : State) (_nbits w : Nat) : State := { s with sched := eventOfWord w :: s.sched }

end Sys2Proof.Machine
end

