-- ==== Sys2Proof/Safety.lean ====
section
/-! DEFINITION. The terms claims use: the kinds of a state (47_pipeline.md R443), which steps are enabled, the invariants
of 10_state.md R76, the packets a state still owes the sink (47_pipeline.md R444, R446), and the work left to drain. -/

namespace Sys2Proof.Machine

/-! ## Kinds of a state -/

/-- No fault is recorded: steps, host moves and transactions are accepted (47_pipeline.md R442). -/
abbrev Live (s : State) : Prop := s.sys.fault = none

/-- Final (47_pipeline.md R443). -/
abbrev Final (s : State) : Prop := s.sys.co = .exited ∧ Live s

/-- The steps of the producer, the consumer and the coordinator (47_pipeline.md R431, R434 to R439). -/
def agentSteps : List Instr := [.pPoll, .pPush, .pEnd, .cPop, .cScan, .coJoinP, .coJoinC]

/-- When an agent's step is enabled (the lines "Enabled when" of 47_pipeline.md R431, R434 to R439, and R442). -/
def agentEnabled (i : Instr) (s : State) : Prop :=
  Live s ∧
    match i with
    | .pPoll => s.sys.ps = .poll
    | .pPush => (∃ e, s.sys.ps = .push e) ∧ s.sys.fifo.length < s.cfg.k
    | .pEnd => s.sys.ps = .stop ∧ s.sys.fifo.length < s.cfg.k
    | .cPop => s.sys.cs = .pop ∧ 0 < s.sys.fifo.length
    | .cScan => ∃ mb st j, s.sys.cs = .scan mb st j
    | .coJoinP => s.sys.co = .waitP ∧ s.sys.ps = .done
    | .coJoinC => s.sys.co = .waitC ∧ s.sys.cs = .done
    | _ => False

/-- Stuck: waiting, and no producer, consumer or coordinator step is enabled (47_pipeline.md R443). -/
def Stuck (s : State) : Prop := Live s ∧ s.sys.co ≠ .exited ∧ ∀ i ∈ agentSteps, ¬ agentEnabled i s

/-! ## Operand types -/

/-- The kind of a field is the one its declared type asks for, whatever its range (30_encoding.md R152). -/
def fieldHasKind (t : OperandType) (f : Field) : Bool :=
  match t, f with
  | .nat, .num _ => true
  | .u _, .num _ => true
  | .seqOf _, .seq _ => true
  | .stats, .stats _ => true
  | .entry, .entry _ => true
  | _, _ => false

/-- The width of a declared type, or of its elements, where it has one: a sample of an Entry is a `u19` (10_state.md
R58, R73). -/
def typeWidth : OperandType → Option Nat
  | .u w => some w
  | .seqOf w => some w
  | .entry => some 19
  | .nat => none
  | .stats => none

/-- The values of a field that a width bounds, from element 0 (60_exceptions.md R479). -/
def boundedValues : Field → List Nat
  | .num n => [n]
  | .seq xs => xs
  | .entry (.data mb) => mb
  | .entry .endMark => []
  | .stats _ => []

/-- The field is within its declared type: of its kind, and every value below the bound (30_encoding.md R156). -/
def FieldFits (t : OperandType) (f : Field) : Prop :=
  fieldHasKind t f = true ∧ ∀ w, typeWidth t = some w → ∀ x ∈ boundedValues f, x < 2 ^ w

/-- The first operand outside its declared type is at position `pos`, and `v` is the value that BAD_OPERAND records for it
(30_encoding.md R156; 60_exceptions.md R475, R479): every earlier operand is within its type; of an operand of the right
kind, `v` is the first element outside the range; of a number where another kind belongs, `v` is that number. Of another
operand of the wrong kind, and of a missing one, the value is free (log 27). -/
def FirstMisfit (ts : List OperandType) (fs : List Field) (pos v : Nat) : Prop :=
  (∀ p < pos, ∃ t f, ts[p]? = some t ∧ fs[p]? = some f ∧ FieldFits t f) ∧
  match ts[pos]?, fs[pos]? with
  | some t, some f =>
    (fieldHasKind t f = true → ∃ w pre post, typeWidth t = some w ∧ boundedValues f = pre ++ v :: post ∧
      (∀ x ∈ pre, x < 2 ^ w) ∧ 2 ^ w ≤ v) ∧
    (fieldHasKind t f = false → ∀ n, f = .num n → v = n)
  | none, some f => ∀ n, f = .num n → v = n
  | some _, none => True
  | none, none => False

/-! ## Invariants -/

/-- `End` occurs at most once, and only as the last entry (10_state.md R76 item 2). -/
def endLast : List Entry → Bool
  | [] => true
  | .data _ :: rest => endLast rest
  | .endMark :: rest => rest.isEmpty

/-- The invariants of 10_state.md R76, items 1 to 8, with what makes every step keep them: which idle states go together,
the types of the samples in flight, and where the acquisition error, the status and the output come from. Items 2, 3 and
8 hold from START onwards. -/
structure RunInv (s : State) : Prop where
  /-- R76 item 1. -/
  fifo_le : s.sys.fifo.length ≤ s.cfg.k
  /-- R76 item 2. -/
  end_last : s.sys.co ≠ .idle → endLast s.sys.fifo = true
  /-- R76 item 3. -/
  done_iff : s.sys.co ≠ .idle → (s.sys.ps = .done ↔ (.endMark ∈ s.sys.fifo ∨ s.sys.cs = .done))
  /-- R76 item 4. -/
  consumer_done : s.sys.cs = .done → s.sys.ps = .done ∧ s.sys.fifo = []
  /-- R76 item 5. -/
  exited_done : s.sys.co = .exited → s.sys.ps = .done ∧ s.sys.cs = .done ∧ s.sys.status ≠ none
  /-- R76 item 6. -/
  status_exited : s.sys.status ≠ none → s.sys.co = .exited
  /-- R76 item 7; `i ≤ |mb| − 239` written without subtraction. -/
  scanning : ∀ mb st i, s.sys.cs = .scan mb st i →
    winLen ≤ mb.length ∧ bufferStats s.cfg.varDiv mb = .ok st ∧ i + 239 ≤ mb.length
  /-- R76 item 8. -/
  block_sized : s.sys.co ≠ .idle → ∀ mb, .data mb ∈ s.sys.fifo → 2 * mb.length = s.cfg.blockBytes
  /-- The producer holds a `Data` entry of one block (10_state.md R54). -/
  held_block : ∀ e, s.sys.ps = .push e → ∃ mb, e = .data mb ∧ 2 * mb.length = s.cfg.blockBytes
  /-- The sides are idle exactly before START (10_state.md R56). -/
  producer_idle : s.sys.ps = .idle ↔ s.sys.co = .idle
  consumer_idle : s.sys.cs = .idle ↔ s.sys.co = .idle
  /-- CO_JOIN_P has seen the producer done (47_pipeline.md R438). -/
  joined_producer : s.sys.co = .waitC → s.sys.ps = .done
  /-- Samples are `u19` values (10_state.md R73). -/
  fifo_typed : ∀ e ∈ s.sys.fifo, e.wf = true
  held_typed : ∀ e, s.sys.ps = .push e → e.wf = true
  scan_typed : ∀ mb st i, s.sys.cs = .scan mb st i → seqBelow magW mb = true
  port_typed : ∀ e, s.pushPort = some e → e.wf = true
  /-- An acquisition error has stopped the producer (47_pipeline.md R433). -/
  acq_err_stops : s.sys.acqErr = true → s.sys.ps = .stop ∨ s.sys.ps = .done
  /-- The status tells whether an acquisition error occurred (10_state.md R63). -/
  status_value : ∀ v, s.sys.status = some v → v = if s.sys.acqErr then .acqError else .ok
  /-- Only validated packets surface (10_state.md R62, 45_bitfield_decoder.md R352). -/
  out_df17 : ∀ p ∈ s.sys.out, p.downlinkFormat = 17
  /-- Nothing is emitted before START, and no read fails (47_pipeline.md R430, R433, R437). -/
  idle_clean : s.sys.co = .idle → s.sys.out = [] ∧ s.sys.acqErr = false

/-! ## What is owed to the sink -/

/-- The packets of a scan that does not raise. -/
def packetsOr (r : Except Raise (List Packet)) : List Packet :=
  match r with
  | .ok pkts => pkts
  | .error _ => []

/-- `SCAN(mb)` for a `Data` entry, nothing for `End` (47_pipeline.md R421, R436). -/
def entryPackets (vd : VarDiv) (e : Entry) : List Packet :=
  match e with
  | .data mb => packetsOr (scanBuffer vd mb)
  | .endMark => []

/-- The packets the consumer's current scan has still to find (47_pipeline.md R437). -/
def consumerOwes (s : State) : List Packet :=
  match s.sys.cs with
  | .scan mb st i => packetsOr (scanFrom s.cfg.varDiv mb st (mb.length + 1 - (i + winLen)) i)
  | _ => []

/-- The packets of the buffer the producer holds (47_pipeline.md R434). -/
def producerOwes (s : State) : List Packet :=
  match s.sys.ps with
  | .push e => entryPackets s.cfg.varDiv e
  | _ => []

/-- What has been emitted and what the work in flight will emit, in order (47_pipeline.md R444 to R446). -/
def owed (s : State) : List Packet :=
  s.sys.out ++ consumerOwes s ++ s.sys.fifo.flatMap (entryPackets s.cfg.varDiv) ++ producerOwes s

/-- `SCAN(MAGBLK(blk))` (47_pipeline.md R446). -/
def blockPackets (cfg : Params) (blk : List Nat) : List Packet :=
  match magBlock cfg.c blk with
  | .ok mb => packetsOr (scanBuffer cfg.varDiv mb)
  | .error _ => []

/-- The operation the next event asks for, if it asks for one. -/
def nextInstr (s : State) : Option Instr :=
  match s.sched with
  | .host r :: _ =>
    match decode r with
    | .ok i => some i
    | .error _ => none
  | .agent w :: _ =>
    match decode ⟨w, []⟩ with
    | .ok i => some i
    | .error _ => none
  | _ => none

/-- The source's answers that `n` steps from `s` accept, in order: H_SRC_OK and H_SRC_ERR taken while a read request is
outstanding and the CORE is live (47_pipeline.md R432, R433). -/
def answers : Nat → State → List Instr
  | 0, _ => []
  | n + 1, s =>
    match step s with
    | .next t =>
      (match nextInstr s with
        | some (.hSrcOk blk) => if s.readRequested ∧ Live s then [.hSrcOk blk] else []
        | some .hSrcErr => if s.readRequested ∧ Live s then [.hSrcErr] else []
        | _ => []) ++ answers n t
    | _ => []

/-- The packets of the blocks among the source's answers, in order (47_pipeline.md R446). -/
def answeredPackets (cfg : Params) (as : List Instr) : List Packet :=
  as.flatMap fun a =>
    match a with
    | .hSrcOk blk => blockPackets cfg blk
    | _ => []

/-! ## Work left to drain -/

/-- The consumer steps an entry costs, its pop included (47_pipeline.md R436, R437). -/
def entryWork (e : Entry) : Nat :=
  match e with
  | .data mb => mb.length + 2
  | .endMark => 1

/-- The agents' steps and source answers left, at most, once cancellation is raised: a bound that every enabled agent step
and every accepted answer lowers (47_pipeline.md R447, R448). A read in flight counts as the block it may still bring. -/
def drainWork (s : State) : Nat :=
  (match s.sys.co with
    | .idle => 0
    | .waitP => 2
    | .waitC => 1
    | .exited => 0) +
  (match s.sys.ps with
    | .poll => 3
    | .read => s.cfg.blockBytes / 2 + 7
    | .push e => entryWork e + 4
    | .stop => 2
    | _ => 0) +
  (match s.sys.cs with
    | .scan mb _ i => mb.length - i + 1
    | _ => 0) +
  (s.sys.fifo.map entryWork).sum

end Sys2Proof.Machine
end

