-- ==== Sys2Proof/Certificates/Slice0/Obligations.lean ====
section
/-! DEFINITION. The statements for the provers. Each says what a rule of spec/ says of one operation, or of the machine.
A command-port result is stated as the reply that joins `State.replies`, the model's log of results (log 12); that the
rest of the state is unchanged is said by the record the next state is written as. -/

open Sys2Proof Sys2Proof.Machine

/-! ## Encoding, decoding and the step -/

/-- A transaction decodes to an operation exactly when it is that operation's encoding (30_encoding.md R150 to R153). No
operand bit is dropped, and every transaction has at most one meaning. -/
def Obligations.DecodeInvertsEncode : Prop :=
  ∀ (r : Request) (i : Instr), decode r = .ok i ↔ encode i = r

/-- A few words written out from the opcode map decode to their operations (30_encoding.md R153). -/
def Obligations.OpcodeMapSamples : Prop :=
  decode ⟨0b00000001, [.num 255, .num 127]⟩ = .ok (.mag 255 127) ∧
  decode ⟨0b00010000, [.seq [1], .stats ⟨1, 2, 3⟩, .num 4]⟩ = .ok (.preamble [1] ⟨1, 2, 3⟩ 4) ∧
  decode ⟨0b00101000, [.seq [0xF8], .num 0, .num 5]⟩ = .ok (.xbits [0xF8] 0 5) ∧
  decode ⟨0b00110000, [.entry .endMark]⟩ = .ok (.push .endMark) ∧
  decode ⟨0b01001001, []⟩ = .ok .cScan ∧
  decode ⟨0b01011010, []⟩ = .ok .hCancel

/-- A step runs the decoded operation: the next event leaves the schedule, and a transaction, host move or agent step is
`exec` of the operation it decodes to; any other transaction, the waiting transactions of the FIFO ports and reset are
taken by their own functions. With nothing scheduled nothing moves (logs 3, 4 and 15: the model's choice). -/
def Obligations.StepRunsDecodedInstr : Prop :=
  (∀ (s : State) (r : Request) (rest : List Event) (i : Instr),
    s.sched = .host r :: rest → decode r = .ok i → i.port ≠ .step →
      step s = exec i { s with sched := rest }) ∧
  (∀ (s : State) (w : BitVec 8) (rest : List Event) (i : Instr),
    s.sched = .agent w :: rest → decode ⟨w, []⟩ = .ok i → i.port = .step →
      step s = exec i { s with sched := rest }) ∧
  (∀ (s : State) (r : Request) (rest : List Event), s.sched = .host r :: rest →
    step s = takeHost r { s with sched := rest }) ∧
  (∀ (s : State) (p : FifoPort) (rest : List Event), s.sched = .port p :: rest →
    step s = fifoPortStep p { s with sched := rest }) ∧
  (∀ (s : State) (rest : List Event), s.sched = .reset :: rest →
    step s = .next (({ s with sched := rest } : State).afterReset)) ∧
  (∀ s : State, s.sched = [] → step s = .next s)

/-- ILLEGAL_OP (30_encoding.md R155): the unassigned codes are those of no operation, 226 of 256, with 0x00 and the whole
of groups 10 and 11 among them; such a code, or a step code, issued by the host raises ILLEGAL_OP with the code as info,
whatever fields come with it. -/
def Obligations.IllegalCodeRaises : Prop :=
  (∀ w : BitVec 8, portOf w = none ↔ ∀ i : Instr, i.word ≠ w) ∧
  ((List.range 256).countP fun w => (portOf (BitVec.ofNat 8 w)).isNone) = 226 ∧
  (∀ w : BitVec 8, w = 0x00 ∨ 0b10 ≤ groupOf w → portOf w = none) ∧
  (∀ w : BitVec 8, portOf w = some .step ↔ w ∈ [0x40#8, 0x41#8, 0x42#8, 0x48#8, 0x49#8, 0x51#8, 0x52#8]) ∧
  (∀ (s : State) (r : Request), Live s → (portOf r.word = none ∨ portOf r.word = some .step) →
    takeHost r s = .next { s with sys := { s.sys with fault := some ⟨7, r.word, [r.word.toNat]⟩ } })

/-- BAD_OPERAND (30_encoding.md R156, 60_exceptions.md R475, R479): a command-port operation with an operand outside its
declared type writes the fault with the position of the first such operand and, in a sequence, its first such element,
and nothing else; so does a command-port transaction with a missing, surplus or wrong-kind field (logs 16 and 27: the
model's choice for a missing or surplus field, and for a value that is no number); an operation that is well typed never
records BAD_OPERAND. -/
def Obligations.BadOperandRaises : Prop :=
  (∀ (i : Instr) (s : State), Live s → i.port = .cmd → i.wf = false →
    ∃ pos v : Nat, FirstMisfit (operandTypes i.word) i.fields pos v ∧
      exec i s = .next { s with sys := { s.sys with fault := some ⟨9, i.word, [pos, v]⟩ } }) ∧
  (∀ (r : Request) (s : State) (e : DecodeError), Live s → portOf r.word = some .cmd → decode r = .error e →
    ∃ pos v : Nat, FirstMisfit (operandTypes r.word) r.fields pos v ∧
      takeHost r s = .next { s with sys := { s.sys with fault := some ⟨9, r.word, [pos, v]⟩ } }) ∧
  (∀ (i : Instr) (s t : State) (f : FaultRec), Live s → i.wf = true → exec i s = .next t → t.sys.fault = some f →
    f.code ≠ 9)

/-! ## magnitude_calculator -/

/-- MAG (40_magnitude.md R200): the squared power of one pair, and BAD_OPERAND for a value above 255. The reply log
is the model's (log 12). -/
def Obligations.MagGivesSquaredPower : Prop :=
  ∀ (s : State) (i q : Nat), Live s →
    (i < 256 → q < 256 → ∃ m : Nat,
      (m : Int) = (2 * (i : Int) - s.cfg.c) ^ 2 + (2 * (q : Int) - s.cfg.c) ^ 2 ∧
      exec (.mag i q) s = .next { s with replies := s.replies ++ [⟨0x01, .magnitude m⟩] }) ∧
    (256 ≤ i → exec (.mag i q) s = .next { s with sys := { s.sys with fault := some ⟨9, 0x01, [0, i]⟩ } }) ∧
    (i < 256 → 256 ≤ q →
      exec (.mag i q) s = .next { s with sys := { s.sys with fault := some ⟨9, 0x01, [1, q]⟩ } })

/-- The magnitude width (00_scope.md R15): for every configuration each term is at most 510 in absolute value, so a
magnitude is at most 520200, below 2^19; it does not depend on which byte is I and which is Q. -/
def Obligations.MagnitudeFitsNineteenBits : Prop :=
  magW = 19 ∧ ∀ (cfg : Params) (i q : Nat), i < 256 → q < 256 → |2 * (i : Int) - cfg.c| ≤ 510 ∧
    magnitude cfg.c i q ≤ 520200 ∧ magnitude cfg.c i q < 2 ^ 19 ∧ magnitude cfg.c i q = magnitude cfg.c q i

/-- MAGBLK (40_magnitude.md R202): one magnitude per byte pair, in order; BAD_BLOCK for an odd length. The reply log
is the model's (log 12). -/
def Obligations.MagblkMapsPairs : Prop :=
  ∀ (s : State) (blk : List Nat), Live s → (∀ b ∈ blk, b < 256) →
    (blk.length % 2 = 0 → ∃ mb : List Nat, mb.length = blk.length / 2 ∧
      (∀ j, j < mb.length → (mb.getD j 0 : Int) =
        (2 * (blk.getD (2 * j) 0 : Int) - s.cfg.c) ^ 2 + (2 * (blk.getD (2 * j + 1) 0 : Int) - s.cfg.c) ^ 2) ∧
      exec (.magblk blk) s = .next { s with replies := s.replies ++ [⟨0x02, .buffer mb⟩] }) ∧
    (blk.length % 2 = 1 →
      exec (.magblk blk) s = .next { s with sys := { s.sys with fault := some ⟨5, 0x02, [blk.length]⟩ } })

/-! ## adaptive_threshold_estimator -/

/-- STATS (41_threshold.md R231; 10_state.md R67): count, sum and sum of squares, left in the accumulators; BAD_STATS for
the empty buffer and for one element under SAMPLE. The reply log is the model's (log 12). The registers a unit
leaves: log 14. -/
def Obligations.StatsAreSums : Prop :=
  ∀ (s : State) (mb : List Nat), Live s → (∀ x ∈ mb, x < 2 ^ 19) →
    (mb ≠ [] → (s.cfg.varDiv = .pop ∨ 2 ≤ mb.length) →
      exec (.stats mb) s = .next { s with
        units := { s.units with n := mb.length, s1 := mb.sum, s2 := (mb.map fun x => x ^ 2).sum }
        replies := s.replies ++ [⟨0x08, .stats ⟨mb.length, mb.sum, (mb.map fun x => x ^ 2).sum⟩⟩] }) ∧
    (mb = [] → exec (.stats mb) s = .next { s with sys := { s.sys with fault := some ⟨8, 0x08, [0]⟩ } }) ∧
    (mb.length = 1 → s.cfg.varDiv = .sample →
      exec (.stats mb) s = .next { s with sys := { s.sys with fault := some ⟨8, 0x08, [1]⟩ } })

/-- D is a natural number (41_threshold.md R232): it is never negative, it is 0 exactly for a constant buffer, so σ is 0
exactly then, and the threshold is at least the mean, which is at least 0. -/
def Obligations.DiscriminantIsNatural : Prop :=
  ∀ (vd : VarDiv) (mb : List Nat) (st : Stats) (μ v σ T : ℝ), bufferStats vd mb = .ok st →
    μ = (st.s1 : ℝ) / st.n →
    v = (statsD st : ℝ) / (match vd with | .pop => (st.n : ℝ) * st.n | .sample => (st.n : ℝ) * (st.n - 1)) →
    σ = Real.sqrt v → T = μ + 2 * σ →
      0 ≤ statsD st ∧ (statsD st = 0 ↔ ∀ x ∈ mb, ∀ y ∈ mb, x = y) ∧ 0 ≤ σ ∧
      (σ = 0 ↔ ∀ x ∈ mb, ∀ y ∈ mb, x = y) ∧ μ ≤ T ∧ 0 ≤ μ

/-- ABOVE (41_threshold.md R230, R233, R236): the integer form the CORE computes is the strict comparison with the real
threshold mean + 2·stddev, for both divisors; BAD_STATS for malformed statistics. The reply log is the model's (log
12). -/
def Obligations.AboveIsRealComparison : Prop :=
  ∀ (s : State) (x : Nat) (st : Stats) (μ v σ T : ℝ), Live s → x < 2 ^ 19 →
    μ = (st.s1 : ℝ) / st.n →
    v = ((st.n : ℝ) * st.s2 - (st.s1 : ℝ) * st.s1) /
      (match s.cfg.varDiv with | .pop => (st.n : ℝ) * st.n | .sample => (st.n : ℝ) * (st.n - 1)) →
    σ = Real.sqrt v → T = μ + 2 * σ →
    (st.n ≠ 0 → (s.cfg.varDiv = .sample → st.n ≠ 1) → st.s1 * st.s1 ≤ st.n * st.s2 →
      ∃ b : Bool, (b = true ↔ T < (x : ℝ)) ∧
        exec (.above x st) s = .next { s with replies := s.replies ++ [⟨0x09, .bit b⟩] }) ∧
    ((st.n = 0 ∨ (s.cfg.varDiv = .sample ∧ st.n = 1) ∨ st.n * st.s2 < st.s1 * st.s1) →
      exec (.above x st) s = .next { s with sys := { s.sys with fault := some ⟨8, 0x09, [st.n]⟩ } })

/-- BELOWHALF (41_threshold.md R230, R234, R236): the integer form the CORE computes is the strict comparison with half of
the real threshold, for both divisors; BAD_STATS for malformed statistics. The reply log is the model's (log 12). -/
def Obligations.BelowHalfIsRealComparison : Prop :=
  ∀ (s : State) (x : Nat) (st : Stats) (μ v σ T : ℝ), Live s → x < 2 ^ 19 →
    μ = (st.s1 : ℝ) / st.n →
    v = ((st.n : ℝ) * st.s2 - (st.s1 : ℝ) * st.s1) /
      (match s.cfg.varDiv with | .pop => (st.n : ℝ) * st.n | .sample => (st.n : ℝ) * (st.n - 1)) →
    σ = Real.sqrt v → T = μ + 2 * σ →
    (st.n ≠ 0 → (s.cfg.varDiv = .sample → st.n ≠ 1) → st.s1 * st.s1 ≤ st.n * st.s2 →
      ∃ b : Bool, (b = true ↔ (x : ℝ) < 1 / 2 * T) ∧
        exec (.belowhalf x st) s = .next { s with replies := s.replies ++ [⟨0x0A, .bit b⟩] }) ∧
    ((st.n = 0 ∨ (s.cfg.varDiv = .sample ∧ st.n = 1) ∨ st.n * st.s2 < st.s1 * st.s1) →
      exec (.belowhalf x st) s = .next { s with sys := { s.sys with fault := some ⟨8, 0x0A, [st.n]⟩ } })

/-- Disjointness (41_threshold.md R237): no sample is both above the threshold and below half of it. -/
def Obligations.AboveAndBelowHalfDisjoint : Prop :=
  ∀ (vd : VarDiv) (x : Nat) (st : Stats), checkStats vd st = .ok () →
    ¬ (aboveBit vd x st = true ∧ belowHalfBit vd x st = true)

/-! ## preamble_correlator -/

/-- PREAMBLE (42_preamble.md R260): four samples above the threshold and three below half of it; the window is checked
before the statistics. The reply log is the model's (log 12). -/
def Obligations.PreambleTestsSevenSamples : Prop :=
  ∀ (s : State) (mb : List Nat) (st : Stats) (i : Nat), Live s → (∀ x ∈ mb, x < 2 ^ 19) →
    (i + 16 ≤ mb.length → checkStats s.cfg.varDiv st = .ok () →
      exec (.preamble mb st i) s = .next { s with replies := s.replies ++ [⟨0x10, .bit
        ((aboveBit s.cfg.varDiv (mb.getD i 0) st && aboveBit s.cfg.varDiv (mb.getD (i + 2) 0) st &&
          aboveBit s.cfg.varDiv (mb.getD (i + 7) 0) st && aboveBit s.cfg.varDiv (mb.getD (i + 9) 0) st) &&
         (belowHalfBit s.cfg.varDiv (mb.getD (i + 1) 0) st && belowHalfBit s.cfg.varDiv (mb.getD (i + 3) 0) st &&
          belowHalfBit s.cfg.varDiv (mb.getD (i + 8) 0) st))⟩] }) ∧
    (mb.length < i + 16 → exec (.preamble mb st i) s =
      .next { s with sys := { s.sys with fault := some ⟨1, 0x10, [i + 15, mb.length]⟩ } }) ∧
    (i + 16 ≤ mb.length → checkStats s.cfg.varDiv st ≠ .ok () → exec (.preamble mb st i) s =
      .next { s with sys := { s.sys with fault := some ⟨8, 0x10, [st.n]⟩ } })

/-- The match depends only on seven samples and the statistics (42_preamble.md R262, first two sentences). -/
def Obligations.MatchIgnoresGuardSamples : Prop :=
  ∀ (vd : VarDiv) (mb mb' : List Nat) (st : Stats) (i : Nat), mb.length = mb'.length →
    (∀ d, d ∈ [0, 1, 2, 3, 7, 8, 9] → mb.getD (i + d) 0 = mb'.getD (i + d) 0) →
      preamble vd mb st i = preamble vd mb' st i

/-- No two adjacent offsets both match, because the sample between is below half for the first and above for the second,
and offsets two apart can match (42_preamble.md R263). -/
def Obligations.NoAdjacentMatches : Prop :=
  (∀ (vd : VarDiv) (mb : List Nat) (st : Stats) (i : Nat),
    (matchBit vd mb st i = true → belowHalfBit vd (mb.getD (i + 1) 0) st = true) ∧
    (matchBit vd mb st (i + 1) = true → aboveBit vd (mb.getD (i + 1) 0) st = true)) ∧
  (∀ (vd : VarDiv) (mb : List Nat) (st : Stats) (i : Nat), checkStats vd st = .ok () →
    ¬ (matchBit vd mb st i = true ∧ matchBit vd mb st (i + 1) = true)) ∧
  (∃ (vd : VarDiv) (mb : List Nat) (st : Stats) (i : Nat), bufferStats vd mb = .ok st ∧ i + 18 ≤ mb.length ∧
    matchBit vd mb st i = true ∧ matchBit vd mb st (i + 2) = true)

/-! ## ppm_bit_framer -/

/-- PPMBIT (43_ppm_framer.md R290): strict comparison of the pair; OUT_OF_RANGE_SAMPLE when it does not fit. The
reply log is the model's (log 12). -/
def Obligations.PpmbitComparesPair : Prop :=
  ∀ (s : State) (mb : List Nat) (j : Nat), Live s → (∀ x ∈ mb, x < 2 ^ 19) →
    (j + 1 < mb.length → exec (.ppmbit mb j) s =
      .next { s with replies := s.replies ++ [⟨0x18, .bit (decide (mb.getD (j + 1) 0 < mb.getD j 0))⟩] }) ∧
    (mb.length ≤ j + 1 → exec (.ppmbit mb j) s =
      .next { s with sys := { s.sys with fault := some ⟨1, 0x18, [j + 1, mb.length]⟩ } })

/-- PPMFRAME (43_ppm_framer.md R291, R292; 10_state.md R66): count / 16 bytes, whose stream bit k is the comparison of
pair k; the framer's register holds them. BAD_COUNT comes before OUT_OF_RANGE_SAMPLE. The reply log is the model's
(log 12). The registers a unit leaves: log 14. -/
def Obligations.PpmframePlacesPairBits : Prop :=
  ∀ (s : State) (mb : List Nat) (first count : Nat), Live s → (∀ x ∈ mb, x < 2 ^ 19) →
    (count ≠ 0 → count % 16 = 0 → first + count ≤ mb.length → ∃ f : List Byte, f.length = count / 16 ∧
      (∀ k, k < count / 2 → (f.getD (k / 8) 0).getLsbD (7 - k % 8) =
        decide (mb.getD (first + 2 * k + 1) 0 < mb.getD (first + 2 * k) 0)) ∧
      exec (.ppmframe mb first count) s = .next { s with
        units := { s.units with frame := f }
        replies := s.replies ++ [⟨0x19, .frame f⟩] }) ∧
    ((count = 0 ∨ count % 16 ≠ 0) → exec (.ppmframe mb first count) s =
      .next { s with sys := { s.sys with fault := some ⟨6, 0x19, [count]⟩ } }) ∧
    (count ≠ 0 → count % 16 = 0 → mb.length < first + count → exec (.ppmframe mb first count) s =
      .next { s with sys := { s.sys with fault := some ⟨1, 0x19, [first + count - 1, mb.length]⟩ } })

/-- Round trip (43_ppm_framer.md R293): samples built from a pattern of bits, a positive multiple of 8 of them (a count of
0 is BAD_COUNT by R291), give the bytes whose stream bits are the pattern. -/
def Obligations.PpmRoundTrip : Prop :=
  ∀ (bits : List Bool) (mb : List Nat) (start : Nat), bits ≠ [] → bits.length % 8 = 0 →
    start + 2 * bits.length ≤ mb.length →
    (∀ k, k < bits.length → (bits.getD k false = true → mb.getD (start + 2 * k + 1) 0 < mb.getD (start + 2 * k) 0) ∧
      (bits.getD k false = false → mb.getD (start + 2 * k) 0 ≤ mb.getD (start + 2 * k + 1) 0)) →
      ∃ f, ppmFrame mb start (2 * bits.length) = .ok f ∧ streamBits f = bits

/-! ## crc24_validator -/

/-- CRCSTEP (44_crc24.md R320): shift left by one, OR in the bit, mask to 24 bits; XOR with 0xFFF409 when the bit shifted
out was 1; BAD_OPERAND for a register above 0xFFFFFF or a bit above 1. The reply log is the model's (log 12).
That a lone CRCSTEP leaves every unit register as it was, `crc_reg` among them, is the model's choice (log 14), where
10_state.md R65 has CRCSTEP update `crc_reg` within a remainder. -/
def Obligations.CrcstepShiftsAndReduces : Prop :=
  ∀ (s : State) (r b : Nat), Live s →
    (r < 2 ^ 24 → b < 2 → exec (.crcstep r b) s = .next { s with replies := s.replies ++ [⟨0x20, .crc
        (BitVec.ofNat 24 (((2 * r + b) % 2 ^ 24) ^^^ (if r / 2 ^ 23 = 1 then 0xFFF409 else 0)))⟩] }) ∧
    (2 ^ 24 ≤ r → exec (.crcstep r b) s = .next { s with sys := { s.sys with fault := some ⟨9, 0x20, [0, r]⟩ } }) ∧
    (r < 2 ^ 24 → 2 ≤ b →
      exec (.crcstep r b) s = .next { s with sys := { s.sys with fault := some ⟨9, 0x20, [1, b]⟩ } })

/-- CRCREM (44_crc24.md R321; 10_state.md R65): from 0, eight steps per byte, most significant bit first, bytes in order;
the shift register ends at the remainder. The reply log is the model's (log 12). The registers a unit leaves: log 14. -/
def Obligations.CrcremStepsEveryBit : Prop :=
  crcRem [] = 0 ∧
  (∀ (buf : List Byte) (b : Byte), crcRem (buf ++ [b]) =
    [b.getLsbD 7, b.getLsbD 6, b.getLsbD 5, b.getLsbD 4, b.getLsbD 3, b.getLsbD 2, b.getLsbD 1, b.getLsbD 0].foldl
      crcStep (crcRem buf)) ∧
  (∀ (s : State) (buf : List Nat), Live s → (∀ b ∈ buf, b < 256) →
    exec (.crcrem buf) s = .next { s with
      units := { s.units with crcReg := crcRem (buf.map (BitVec.ofNat 8)) }
      replies := s.replies ++ [⟨0x21, .crc (crcRem (buf.map (BitVec.ofNat 8)))⟩] })

/-- CRCCHECK (44_crc24.md R322, R325): valid iff the remainder over all 14 bytes is zero; FRAME_LENGTH for any other
length. The reply log is the model's (log 12). The registers a unit leaves: log 14. -/
def Obligations.CrccheckIsZeroRemainder : Prop :=
  ∀ (s : State) (frame : List Nat), Live s → (∀ b ∈ frame, b < 256) →
    (frame.length = 14 → exec (.crccheck frame) s = .next { s with
      units := { s.units with crcReg := crcRem (frame.map (BitVec.ofNat 8)) }
      replies := s.replies ++ [⟨0x22, .bit (decide (crcRem (frame.map (BitVec.ofNat 8)) = 0))⟩] }) ∧
    (frame.length ≠ 14 → exec (.crccheck frame) s =
      .next { s with sys := { s.sys with fault := some ⟨4, 0x22, [frame.length]⟩ } })

/-- Linearity (44_crc24.md R324): the remainder is linear over GF(2), so flipping stream bit k of a valid frame leaves the
remainder of that single bit, which is never zero; it is 1 for bit 111 and 0x3935EA for bit 0. -/
def Obligations.CrcIsLinear : Prop :=
  (∀ a b : List Byte, a.length = b.length → crcRem (List.zipWith (· ^^^ ·) a b) = crcRem a ^^^ crcRem b) ∧
  (∀ (f : List Byte) (k : Nat), f.length = 14 → crcRem f = 0 → k < 112 →
    crcRem (f.modify (k / 8) (· ^^^ (1 <<< (7 - k % 8)))) =
      crcRem ((List.replicate 14 (0 : Byte)).modify (k / 8) (· ^^^ (1 <<< (7 - k % 8)))) ∧
    crcRem (f.modify (k / 8) (· ^^^ (1 <<< (7 - k % 8)))) ≠ 0) ∧
  crcRem (List.replicate 13 0 ++ [0x01]) = 0x000001 ∧ crcRem (0x80 :: List.replicate 13 0) = 0x3935EA

/-- Parity relation (44_crc24.md R326): for an 11-byte data part the one 24-bit parity that makes the frame valid is the
remainder of the data followed by three zero bytes; the worked example's is 0x576098, and its 11-byte remainder is not. -/
def Obligations.ParityIsRemainderOfPaddedData : Prop :=
  (∀ (d : List Byte) (p : Word24), d.length = 11 →
    (crcRem (d ++ [p.extractLsb' 16 8, p.extractLsb' 8 8, p.extractLsb' 0 8]) = 0 ↔ p = crcRem (d ++ [0, 0, 0]))) ∧
  (∀ p : Word24, crcRem (List.replicate 11 0 ++ [p.extractLsb' 16 8, p.extractLsb' 8 8, p.extractLsb' 0 8]) = p) ∧
  crcRem [0x8D, 0x48, 0x40, 0xD6, 0x20, 0x2C, 0xC3, 0x71, 0xC3, 0x2C, 0xE0, 0, 0, 0] = 0x576098 ∧
  crcRem [0x8D, 0x48, 0x40, 0xD6, 0x20, 0x2C, 0xC3, 0x71, 0xC3, 0x2C, 0xE0] = 0xE3E6C3

/-- The initial register value is forced (44_crc24.md R323): started from any nonzero register, the worked example's
valid frame leaves a nonzero remainder. -/
def Obligations.NonzeroStartRejectsWorkedExample : Prop :=
  ∀ r : Word24, r ≠ 0 →
    (streamBits [0x8D, 0x48, 0x40, 0xD6, 0x20, 0x2C, 0xC3, 0x71, 0xC3, 0x2C, 0xE0, 0x57, 0x60, 0x98]).foldl crcStep r ≠ 0

/-! ## bitfield_decoder -/

/-- XBITS (45_bitfield_decoder.md R350): bit j of the result is stream bit hi − 1 − j, and the bits above the range are 0;
BAD_SPAN comes before OUT_OF_RANGE_BIT. The reply log is the model's (log 12). -/
def Obligations.XbitsReadsStreamBits : Prop :=
  ∀ (s : State) (buf : List Nat) (lo hi : Nat), Live s → (∀ b ∈ buf, b < 256) →
    (lo < hi → hi - lo ≤ 32 → hi ≤ 8 * buf.length → ∃ v : Word32,
      (∀ j, v.getLsbD j =
        (decide (j < hi - lo) && (buf.getD ((hi - 1 - j) / 8) 0).testBit (7 - (hi - 1 - j) % 8))) ∧
      exec (.xbits buf lo hi) s = .next { s with replies := s.replies ++ [⟨0x28, .value v⟩] }) ∧
    ((hi ≤ lo ∨ 32 < hi - lo) → exec (.xbits buf lo hi) s =
      .next { s with sys := { s.sys with fault := some ⟨3, 0x28, [lo, hi]⟩ } }) ∧
    (lo < hi → hi - lo ≤ 32 → 8 * buf.length < hi → exec (.xbits buf lo hi) s =
      .next { s with sys := { s.sys with fault := some ⟨2, 0x28, [hi, 8 * buf.length]⟩ } })

/-- DFCHECK (45_bitfield_decoder.md R352): byte 0 in 0x88..0x8F gives 1 and every other value gives 0; FRAME_LENGTH for
a frame of another length than 14 bytes. The reply log is the model's (log 12). -/
def Obligations.DfcheckTestsFirstByte : Prop :=
  ∀ (s : State) (frame : List Nat), Live s → (∀ b ∈ frame, b < 256) →
    (frame.length = 14 → exec (.dfcheck frame) s = .next { s with replies := s.replies ++
      [⟨0x29, .bit (decide (0x88 ≤ frame.getD 0 0 ∧ frame.getD 0 0 ≤ 0x8F))⟩] }) ∧
    (frame.length ≠ 14 → exec (.dfcheck frame) s =
      .next { s with sys := { s.sys with fault := some ⟨4, 0x29, [frame.length]⟩ } })

/-- DECODE (45_bitfield_decoder.md R351, R353; 10_state.md R74): each packet field is its stream-bit range, first stream
bit most significant, whatever the type code (R355); FRAME_LENGTH for another length than 14 bytes. The reply log is
the model's (log 12). -/
def Obligations.DecodeReadsFieldLayout : Prop :=
  ∀ (s : State) (frame : List Nat), Live s → (∀ b ∈ frame, b < 256) →
    (frame.length = 14 → ∃ p : Packet,
      (∀ j, j < 5 → p.downlinkFormat.getLsbD j = (frame.getD ((4 - j) / 8) 0).testBit (7 - (4 - j) % 8)) ∧
      (∀ j, j < 3 → p.capability.getLsbD j = (frame.getD ((7 - j) / 8) 0).testBit (7 - (7 - j) % 8)) ∧
      (∀ j, j < 24 → p.icaoAddress.getLsbD j = (frame.getD ((31 - j) / 8) 0).testBit (7 - (31 - j) % 8)) ∧
      (∀ j, j < 5 → p.typeCode.getLsbD j = (frame.getD ((36 - j) / 8) 0).testBit (7 - (36 - j) % 8)) ∧
      (∀ j, j < 12 → p.altitude.getLsbD j = (frame.getD ((51 - j) / 8) 0).testBit (7 - (51 - j) % 8)) ∧
      (∀ j, j < 1 → p.timeFlag.getLsbD j = (frame.getD ((52 - j) / 8) 0).testBit (7 - (52 - j) % 8)) ∧
      (∀ j, j < 1 → p.formatFlag.getLsbD j = (frame.getD ((53 - j) / 8) 0).testBit (7 - (53 - j) % 8)) ∧
      (∀ j, j < 17 → p.latCpr.getLsbD j = (frame.getD ((70 - j) / 8) 0).testBit (7 - (70 - j) % 8)) ∧
      (∀ j, j < 17 → p.lonCpr.getLsbD j = (frame.getD ((87 - j) / 8) 0).testBit (7 - (87 - j) % 8)) ∧
      exec (.decode frame) s = .next { s with replies := s.replies ++ [⟨0x2A, .packet p⟩] }) ∧
    (frame.length ≠ 14 → exec (.decode frame) s =
      .next { s with sys := { s.sys with fault := some ⟨4, 0x2A, [frame.length]⟩ } })

/-- The ICAO address is frame bytes 1, 2 and 3, big-endian (20_memory.md R107, 45_bitfield_decoder.md R356). -/
def Obligations.IcaoAddressIsBigEndian : Prop :=
  ∀ f : List Byte, f.length = 14 →
    (packetOf f).icaoAddress.toNat = (f.getD 1 0).toNat * 2 ^ 16 + (f.getD 2 0).toNat * 2 ^ 8 + (f.getD 3 0).toNat ∧
    ((packetOf f).icaoAddress.toNat : Nat) = (bitRange f 8 32).toNat

/-! ## sync_fifo -/

/-- PUSH on the command port (46_fifo.md R391, R394, R396): while idle the entry is appended when there is room, and
otherwise the transaction stays blocked at the producer port; BUSY while the pipeline runs. That a port which already
carries a transaction takes no second one is 46_fifo.md R390 (log 11). The reply log is the model's (log 12). -/
def Obligations.PushAppendsOrWaits : Prop :=
  ∀ (s : State) (e : Entry), Live s → e.wf = true →
    (s.sys.co = .idle → s.pushPort = none → s.sys.fifo.length < s.cfg.k →
      exec (.push e) s = .next { s with
        sys := { s.sys with fifo := s.sys.fifo ++ [e] }
        replies := s.replies ++ [⟨0x30, .done⟩] }) ∧
    (s.sys.co = .idle → s.pushPort = none → s.cfg.k ≤ s.sys.fifo.length →
      exec (.push e) s = .next { s with pushPort := some e }) ∧
    (s.sys.co = .idle → s.pushPort ≠ none → exec (.push e) s = .refused .portOccupied) ∧
    (s.sys.co ≠ .idle → exec (.push e) s =
      .next { s with sys := { s.sys with fault := some ⟨10, 0x30, [0x30]⟩ } })

/-- POP on the command port (46_fifo.md R392, R394, R396): while idle the oldest entry is removed and returned, and
otherwise the transaction stays blocked at the consumer port; BUSY while the pipeline runs (second transaction: log
11). The reply log is the model's (log 12). -/
def Obligations.PopRemovesOldestOrWaits : Prop :=
  ∀ s : State, Live s →
    (∀ (e : Entry) (q : List Entry), s.sys.co = .idle → s.popPort = false → s.sys.fifo = e :: q →
      exec .pop s = .next { s with
        sys := { s.sys with fifo := q }
        replies := s.replies ++ [⟨0x31, .entry e⟩] }) ∧
    (s.sys.co = .idle → s.popPort = false → s.sys.fifo = [] → exec .pop s = .next { s with popPort := true }) ∧
    (s.sys.co = .idle → s.popPort = true → exec .pop s = .refused .portOccupied) ∧
    (s.sys.co ≠ .idle → exec .pop s =
      .next { s with sys := { s.sys with fault := some ⟨10, 0x31, [0x31]⟩ } })

/-- The transaction waiting at a port completes when its condition holds and waits otherwise (46_fifo.md R394, R396);
after START it takes no effect (10_state.md R76; log 10). The reply log is the model's (log 12). -/
def Obligations.WaitingTransactionCompletes : Prop :=
  ∀ (s : State) (rest : List Event), Live s →
    (∀ e, s.sched = .port .producer :: rest → s.sys.co = .idle → s.pushPort = some e →
      s.sys.fifo.length < s.cfg.k → step s = .next { s with
        sched := rest
        pushPort := none
        sys := { s.sys with fifo := s.sys.fifo ++ [e] }
        replies := s.replies ++ [⟨0x30, .done⟩] }) ∧
    (∀ e q, s.sched = .port .consumer :: rest → s.sys.co = .idle → s.popPort = true → s.sys.fifo = e :: q →
      step s = .next { s with
        sched := rest
        popPort := false
        sys := { s.sys with fifo := q }
        replies := s.replies ++ [⟨0x31, .entry e⟩] }) ∧
    (s.sched = .port .producer :: rest → (s.sys.co ≠ .idle ∨ s.pushPort = none ∨ s.cfg.k ≤ s.sys.fifo.length) →
      step s = .next { s with sched := rest }) ∧
    (s.sched = .port .consumer :: rest → (s.sys.co ≠ .idle ∨ s.popPort = false ∨ s.sys.fifo = []) →
      step s = .next { s with sched := rest })

/-- FIFOSTAT (46_fifo.md R393): the number of entries, whether it is K, whether it is 0. The reply log is the
model's (log 12). -/
def Obligations.FifostatReadsOccupancy : Prop :=
  ∀ s : State, Live s →
    exec .fifostat s = .next { s with replies := s.replies ++
      [⟨0x32, .occupancy s.sys.fifo.length (decide (s.sys.fifo.length = s.cfg.k)) (decide (s.sys.fifo.length = 0))⟩] }

/-- Strict FIFO (20_memory.md R114, 46_fifo.md R391, R392): any step but a reset leaves the FIFO, appends one entry at
its tail while it has room, or removes its head. -/
def Obligations.FifoIsStrict : Prop :=
  ∀ s t : State, step s = .next t → s.sched.head? ≠ some .reset →
    t.sys.fifo = s.sys.fifo ∨
    (∃ e, t.sys.fifo = s.sys.fifo ++ [e] ∧ s.sys.fifo.length < s.cfg.k) ∨
    (∃ e, s.sys.fifo = e :: t.sys.fifo)

/-! ## The scan datapath -/

/-- SCANSTEP (47_pipeline.md R420): no match gives no packet; a match gives the packet of the frame rebuilt from the 224
samples after the preamble exactly when its downlink format is 17 and its remainder is 0. The window is checked first,
then the statistics. The reply log is the model's (log 12). The registers a unit leaves: log 14. -/
def Obligations.ScanstepAcceptsValidFrames : Prop :=
  ∀ (s : State) (mb : List Nat) (st : Stats) (i : Nat), Live s → (∀ x ∈ mb, x < 2 ^ 19) →
    (i + 240 ≤ mb.length → checkStats s.cfg.varDiv st = .ok () → matchBit s.cfg.varDiv mb st i = false →
      exec (.scanstep mb st i) s = .next { s with replies := s.replies ++ [⟨0x38, .candidate false none⟩] }) ∧
    (i + 240 ≤ mb.length → checkStats s.cfg.varDiv st = .ok () → matchBit s.cfg.varDiv mb st i = true →
      ∀ f, f = walkFrame mb (i + 16) 224 →
        exec (.scanstep mb st i) s = .next { s with
          units := { s.units with frame := f, crcReg := crcRem f }
          replies := s.replies ++ [⟨0x38, .candidate true
            (if (packetOf f).downlinkFormat = 17 ∧ crcRem f = 0 then some (packetOf f) else none)⟩] }) ∧
    (mb.length < i + 240 → exec (.scanstep mb st i) s =
      .next { s with sys := { s.sys with fault := some ⟨1, 0x38, [i + 239, mb.length]⟩ } }) ∧
    (i + 240 ≤ mb.length → checkStats s.cfg.varDiv st ≠ .ok () → exec (.scanstep mb st i) s =
      .next { s with sys := { s.sys with fault := some ⟨8, 0x38, [st.n]⟩ } })

/-- SCAN (47_pipeline.md R421, R422, R424): it never faults; a buffer of fewer than 240 samples gives nothing; otherwise
every offset `i` with `i + 240 ≤ |mb|` is tested in increasing order, with the statistics of the whole buffer, and the
packets of the accepted frames come out in that order. The reply log is the model's (log 12). The registers a unit
leaves: log 14. -/
def Obligations.ScanTestsEveryOffset : Prop :=
  ∀ (s : State) (mb : List Nat), Live s → (∀ x ∈ mb, x < 2 ^ 19) →
    exec (.scan mb) s = .next { s with
      units := s.units.afterScan s.cfg.varDiv mb
      replies := s.replies ++ [⟨0x39, .packets ((List.range (mb.length - 239)).filterMap fun i =>
        if matchBit s.cfg.varDiv mb ⟨mb.length, mb.sum, (mb.map fun x => x ^ 2).sum⟩ i = true ∧
          (packetOf (walkFrame mb (i + 16) 224)).downlinkFormat = 17 ∧ crcRem (walkFrame mb (i + 16) 224) = 0
        then some (packetOf (walkFrame mb (i + 16) 224)) else none)⟩] }

/-! ## Agents, coordinator and host -/

/-- START (47_pipeline.md R430). -/
def Obligations.StartStartsBothSides : Prop :=
  ∀ s : State, Live s → s.sys.co = .idle →
    (s.sys.fifo = [] → exec .start s =
      .next { s with sys := { s.sys with co := .waitP, ps := .poll, cs := .pop } }) ∧
    (s.sys.fifo ≠ [] → exec .start s =
      .next { s with sys := { s.sys with fault := some ⟨10, 0x50, [0x50]⟩ } })

/-- P_POLL (47_pipeline.md R431). -/
def Obligations.PPollReadsCancellation : Prop :=
  ∀ s : State, Live s → s.sys.ps = .poll →
    (s.sys.cancel = true → exec .pPoll s = .next { s with sys := { s.sys with ps := .stop } }) ∧
    (s.sys.cancel = false → exec .pPoll s = .next { s with sys := { s.sys with ps := .read } })

/-- H_SRC_OK (47_pipeline.md R432, 40_magnitude.md R202): the delivered block becomes the producer's buffer of squared
powers. -/
def Obligations.HSrcOkHoldsMagnitudes : Prop :=
  ∀ (s : State) (blk : List Nat), Live s → s.sys.ps = .read → blk.length = s.cfg.blockBytes → (∀ b ∈ blk, b < 256) →
    ∃ mb : List Nat, 2 * mb.length = s.cfg.blockBytes ∧
      (∀ j, j < mb.length → (mb.getD j 0 : Int) =
        (2 * (blk.getD (2 * j) 0 : Int) - s.cfg.c) ^ 2 + (2 * (blk.getD (2 * j + 1) 0 : Int) - s.cfg.c) ^ 2) ∧
      exec (.hSrcOk blk) s = .next { s with sys := { s.sys with ps := .push (.data mb) } }

/-- H_SRC_ERR (47_pipeline.md R433). -/
def Obligations.HSrcErrStopsProducer : Prop :=
  Instr.hSrcErr.word = 0x59 ∧ Instr.hSrcErr.port = .host ∧ ∀ s : State, Live s → s.sys.ps = .read →
    exec .hSrcErr s = .next { s with sys := { s.sys with acqErr := true, ps := .stop } }

/-- P_PUSH (47_pipeline.md R434). That the step, when the FIFO is full and it is blocked, leaves the state is the model's
choice (log 6). -/
def Obligations.PPushAppendsHeldEntry : Prop :=
  Instr.pPush.word = 0x41 ∧ ∀ (s : State) (e : Entry), Live s → s.sys.ps = .push e →
    (s.sys.fifo.length < s.cfg.k →
      exec .pPush s = .next { s with sys := { s.sys with fifo := s.sys.fifo ++ [e], ps := .poll } }) ∧
    (s.cfg.k ≤ s.sys.fifo.length → exec .pPush s = .next s)

/-- P_END (47_pipeline.md R435). That the step, when the FIFO is full and it is blocked, leaves the state is the model's
choice (log 6). -/
def Obligations.PEndAppendsEnd : Prop :=
  ∀ s : State, Live s → s.sys.ps = .stop →
    (s.sys.fifo.length < s.cfg.k →
      exec .pEnd s = .next { s with sys := { s.sys with fifo := s.sys.fifo ++ [.endMark], ps := .done } }) ∧
    (s.cfg.k ≤ s.sys.fifo.length → exec .pEnd s = .next s)

/-- C_POP (47_pipeline.md R436): End is terminal, a short buffer is skipped, any other is scanned from offset 0 with its
statistics (41_threshold.md R231), which the accumulators hold (10_state.md R67). The registers a unit leaves: log 14.
That the step, when the FIFO is empty and it is blocked, leaves the state is the model's choice (log 6). -/
def Obligations.CPopTakesOldestEntry : Prop :=
  ∀ s : State, Live s → s.sys.cs = .pop →
    (∀ q, s.sys.fifo = .endMark :: q →
      exec .cPop s = .next { s with sys := { s.sys with fifo := q, cs := .done } }) ∧
    (∀ mb q, s.sys.fifo = .data mb :: q → mb.length < 240 →
      exec .cPop s = .next { s with sys := { s.sys with fifo := q } }) ∧
    (∀ mb q, s.sys.fifo = .data mb :: q → 240 ≤ mb.length →
      exec .cPop s = .next { s with
        units := { s.units with n := mb.length, s1 := mb.sum, s2 := (mb.map fun x => x ^ 2).sum }
        sys := { s.sys with
          fifo := q
          cs := .scan mb ⟨mb.length, mb.sum, (mb.map fun x => x ^ 2).sum⟩ 0 } }) ∧
    (s.sys.fifo = [] → exec .cPop s = .next s)

/-- C_SCAN (47_pipeline.md R437): one candidate is tested, its packet, if any, joins the output, and the offset advances
by one; at the buffer's end the consumer returns to C_POP. The registers a unit leaves: log 14. -/
def Obligations.CScanTestsOneCandidate : Prop :=
  ∀ (s : State) (mb : List Nat) (st : Stats) (i : Nat), Live s → s.sys.cs = .scan mb st i →
    (i + 240 ≤ mb.length → checkStats s.cfg.varDiv st = .ok () → ∃ (hit : Bool) (pkt : Option Packet),
      scanStep s.cfg.varDiv mb st i = .ok (hit, pkt) ∧
      exec .cScan s = .next { s with
        units := s.units.afterScanStep s.cfg.varDiv mb st i
        sys := { s.sys with out := s.sys.out ++ pkt.toList, cs := .scan mb st (i + 1) } }) ∧
    (mb.length < i + 240 → exec .cScan s = .next { s with sys := { s.sys with cs := .pop } })

/-- CO_JOIN_P (47_pipeline.md R438): the coordinator waits for the consumer next; in a state of a run `End` is then in the
FIFO or already popped. -/
def Obligations.CoJoinPSeesProducerDone : Prop :=
  Instr.coJoinP.word = 0x51 ∧ ∀ s : State, Live s → s.sys.co = .waitP → s.sys.ps = .done →
    exec .coJoinP s = .next { s with sys := { s.sys with co := .waitC } } ∧
    (RunInv s → .endMark ∈ s.sys.fifo ∨ s.sys.cs = .done)

/-- CO_JOIN_C (47_pipeline.md R439), and the process status the host reports (10_state.md R63). -/
def Obligations.CoJoinCWritesStatus : Prop :=
  ∀ s : State, Live s → s.sys.co = .waitC → s.sys.cs = .done →
    (s.sys.acqErr = true → ∃ t, exec .coJoinC s = .next t ∧
      t = { s with sys := { s.sys with status := some .acqError, co := .exited } } ∧
      t.processStatus = some s.cfg.acqExitCode ∧ s.cfg.acqExitCode ≠ 0) ∧
    (s.sys.acqErr = false → ∃ t, exec .coJoinC s = .next t ∧
      t = { s with sys := { s.sys with status := some .ok, co := .exited } } ∧ t.processStatus = some 0)

/-- H_CANCEL (47_pipeline.md R440). -/
def Obligations.HCancelRaisesCancellation : Prop :=
  ∀ s : State, Live s →
    exec .hCancel s = .next { s with sys := { s.sys with cancel := true } } ∧
    (s.sys.cancel = true → exec .hCancel s = .next s)

/-- A step of the producer, the consumer or the coordinator that is not enabled is a wait: nothing changes (46_fifo.md
R394, 60_exceptions.md R489). That a scheduled step which is not enabled leaves the state is the model's choice (log 6). -/
def Obligations.DisabledAgentStepWaits : Prop :=
  ∀ (i : Instr) (s : State), i ∈ agentSteps → ¬ agentEnabled i s → exec i s = .next s

/-! ## The whole machine -/

/-- Fault halt (47_pipeline.md R442): while a fault is recorded no operation has any effect, and no event but reset
changes anything but the schedule. That such an event is used up is the model's choice (log 7). FIFOSTAT is among the
operations: 46_fifo.md R393 and R396 say it is never refused, and that R442 wins there is the model's reading (log 21). -/
def Obligations.FaultedCoreStandsStill : Prop :=
  (∀ (i : Instr) (s : State), s.sys.fault ≠ none → exec i s = .next s) ∧
  (∀ s t : State, s.sys.fault ≠ none → step s = .next t → s.sched.head? ≠ some .reset →
    t = { s with sched := s.sched.tail })

/-- Raise semantics (60_exceptions.md R474, R481, 47_pipeline.md R442): an operation that raises writes the fault record,
with its own code and a fault code from 1 to 10, and nothing else.
That it leaves the registers of the units as they were is the model's choice (log 14). -/
def Obligations.RaiseIsPrecise : Prop :=
  ∀ (i : Instr) (s t : State), Live s → exec i s = .next t → t.sys.fault ≠ none →
    ∃ f : FaultRec, f.op = i.word ∧ 1 ≤ f.code ∧ f.code ≤ 10 ∧
      t = { s with sys := { s.sys with fault := some f } }

/-- Command-port isolation (30_encoding.md R159): a command-port operation other than PUSH and POP writes no field of
`Sys` but `fault`, touches no FIFO port and no configuration, and what it replies does not depend on `Sys`, except
FIFOSTAT's. -/
def Obligations.CommandsLeaveThePipeline : Prop :=
  (∀ (i : Instr) (s t : State), i.port = .cmd → i ≠ .pop → (∀ e, i ≠ .push e) → exec i s = .next t →
    t.sys = { s.sys with fault := t.sys.fault } ∧ t.pushPort = s.pushPort ∧ t.popPort = s.popPort ∧
    t.cfg = s.cfg ∧ t.sched = s.sched) ∧
  (∀ (i : Instr) (s s' t t' : State), i.port = .cmd → i ≠ .pop → i ≠ .fifostat → (∀ e, i ≠ .push e) →
    Live s → Live s' → s.cfg = s'.cfg → s.replies = s'.replies → exec i s = .next t → exec i s' = .next t' →
      t.replies = t'.replies ∧ t.sys.fault = t'.sys.fault)

/-- Reset (70_reset_and_hazards.md R520): available in every state, it writes every field of `Sys` to its reset value and
leaves the configuration; `State.reset` has the same `Sys`. -/
def Obligations.ResetWritesEveryField : Prop :=
  ∀ s : State, ∃ t, takeEvent .reset s = .next t ∧ t.cfg = s.cfg ∧
    t.sys.co = .idle ∧ t.sys.ps = .idle ∧ t.sys.cs = .idle ∧ t.sys.fifo = [] ∧ t.sys.cancel = false ∧
    t.sys.acqErr = false ∧ t.sys.fault = none ∧ t.sys.out = [] ∧ t.sys.status = none ∧ t.sys = State.reset.sys

/-- The invariant holds right after reset, for every configuration and every schedule (10_state.md R76). -/
def Obligations.RunInvAtReset : Prop :=
  ∀ (cfg : Params) (evs : List Event), RunInv { State.reset with cfg := cfg, sched := evs }

/-- Every step keeps the invariant of 10_state.md R76 and the configuration (00_scope.md R13). -/
def Obligations.StepKeepsRunInv : Prop :=
  ∀ s t : State, RunInv s → step s = .next t → RunInv t ∧ t.cfg = s.cfg

/-- No loss (47_pipeline.md R444 to R446): what has been emitted together with what the work in flight will emit is kept
by every operation of a run; a delivered block adds the packets of its scan, and nothing else adds or removes any. -/
def Obligations.OwedPacketsAreConserved : Prop :=
  (∀ (i : Instr) (s t : State), RunInv s → Live s → s.sys.co ≠ .idle → exec i s = .next t → Live t →
    owed t = owed s ++ (match i with | .hSrcOk blk => blockPackets s.cfg blk | _ => [])) ∧
  (∀ s : State, RunInv s → s.sys.co = .exited → owed s = s.sys.out)

/-- Observation (47_pipeline.md R446): over every schedule without a further reset, the output is a prefix of the packets
of the blocks delivered so far, in order; in a final state it is all of them, and the status is ACQ_ERROR exactly when a
read failed. -/
def Obligations.OutputIsScanOfDeliveredBlocks : Prop :=
  ∀ (cfg : Params) (evs : List Event) (n : Nat) (t : State), .reset ∉ evs →
    Sys2Proof.core.run n { State.reset with cfg := cfg, sched := evs } = .next t →
    ∀ as, as = answers n { State.reset with cfg := cfg, sched := evs } →
      t.sys.out <+: answeredPackets cfg as ∧
      (Final t → t.sys.out = answeredPackets cfg as ∧
        t.sys.status = some (if .hSrcErr ∈ as then .acqError else .ok))

/-- No fault arises in a run (60_exceptions.md R477, 47_pipeline.md R424): in a state of a run, no agent step, no
cancellation and no source answer within the host's duties raises. -/
def Obligations.PipelineNeverFaults : Prop :=
  ∀ (i : Instr) (s t : State), RunInv s → Live s →
    (i ∈ agentSteps ∨ i = .hCancel ∨ i = .hSrcErr ∨ ∃ blk, i = .hSrcOk blk ∧ ∀ b ∈ blk, b < 256) →
    exec i s = .next t → Live t

/-- Draining ends (47_pipeline.md R447, R448): once cancellation is raised, every enabled step of the producer, the
consumer or the coordinator is taken and lowers a bound on the steps left, every answer of the source that is accepted
without a fault lowers it, and no step of the machine but reset raises it. -/
def Obligations.DrainTerminates : Prop :=
  (∀ (i : Instr) (s : State), RunInv s → s.sys.cancel = true → agentEnabled i s →
    ∃ t, exec i s = .next t ∧ drainWork t < drainWork s) ∧
  (∀ (i : Instr) (s t : State), RunInv s → s.sys.cancel = true → (i = .hSrcErr ∨ ∃ blk, i = .hSrcOk blk) →
    exec i s = .next t → Live t → drainWork t < drainWork s) ∧
  (∀ s t : State, RunInv s → s.sys.cancel = true → s.sys.co ≠ .idle → s.sched.head? ≠ some .reset →
    step s = .next t → drainWork t ≤ drainWork s)

/-- A stuck run waits for the sample source (47_pipeline.md R443, R454): the only started, unfaulted, unfinished states in
which no agent step is enabled are those whose producer waits in P_READ with everything queued already consumed. -/
def Obligations.StuckOnlyOnSilentSource : Prop :=
  ∀ s : State, RunInv s → s.sys.co ≠ .idle →
    (Stuck s ↔ Live s ∧ s.sys.ps = .read ∧ s.sys.cs = .pop ∧ s.sys.fifo = [] ∧ s.sys.co = .waitP)

/-- Shutdown latency (47_pipeline.md R431, R448; 70_reset_and_hazards.md R530): after cancellation is raised no further
read is issued, and at most K + 2 buffers are ever in flight. -/
def Obligations.NoReadAfterCancellation : Prop :=
  (∀ s t : State, s.sys.cancel = true → step s = .next t → s.sched.head? ≠ some .reset →
    t.sys.cancel = true ∧ (t.sys.ps = .read → s.sys.ps = .read)) ∧
  (∀ s : State, RunInv s →
    (s.sys.fifo.countP fun e => match e with | .data _ => true | .endMark => false) +
      (match s.sys.ps with | .push _ => 1 | _ => 0) + (match s.sys.cs with | .scan _ _ _ => 1 | _ => 0) ≤ s.cfg.k + 2)
end

