-- ==== Sys2Proof/Machine/Assembler.lean ====
section
/-! DEFINITION. The program lines of 30_encoding.md R160, in abstract syntax, and what one does: it issues a command-port
operation, a pseudo-operation (R161), a step or a host move, and may bind the result to a name. No instruction meaning
rests on this file: programs are the host's (92_eei_decisions.md D4; log 24). -/

namespace Sys2Proof.Machine

/-- An operand of a line (30_encoding.md R160). -/
inductive Arg where
  /-- A decimal or hexadecimal number. -/
  | num (n : Nat)
  /-- A byte string `hex"…"`. -/
  | bytes (xs : List Nat)
  /-- A name bound by an earlier line. -/
  | name (x : String)
  /-- `Data(name)`. -/
  | dataOf (x : String)
  /-- `End`. -/
  | endMark
deriving DecidableEq, Repr

/-- A line: a mnemonic and its operands, with the name its result is bound to, if any (30_encoding.md R160). -/
structure Line where
  dst : Option String
  mnemonic : String
  args : List Arg
deriving DecidableEq, Repr

/-- The names bound so far, newest first, each to the result of its line. -/
abbrev Bindings := List (String × Result)

/-- The operand a bound result stands for; a packet, a list of packets, an occupancy and a candidate are no operand. -/
def resultField (v : Result) : Option Field :=
  match v with
  | .magnitude m => some (.num m)
  | .buffer mb => some (.seq mb)
  | .stats st => some (.stats st)
  | .bit b => some (.num (if b then 1 else 0))
  | .frame bytes => some (.seq (bytes.map BitVec.toNat))
  | .crc r => some (.num r.toNat)
  | .value w => some (.num w.toNat)
  | .entry e => some (.entry e)
  | .done => none
  | .packet _ => none
  | .occupancy _ _ _ => none
  | .candidate _ _ => none
  | .packets _ => none

/-- The field an operand stands for. -/
def argField (env : Bindings) (a : Arg) : Option Field :=
  match a with
  | .num n => some (.num n)
  | .bytes xs => some (.seq xs)
  | .name x => (env.lookup x).bind resultField
  | .dataOf x =>
    match (env.lookup x).bind resultField with
    | some (.seq mb) => some (.entry (.data mb))
    | _ => none
  | .endMark => some (.entry .endMark)

/-- The fields of all operands of a line. -/
def argFields (env : Bindings) : List Arg → Option (List Field)
  | [] => some []
  | a :: rest =>
    match argField env a, argFields env rest with
    | some f, some fs => some (f :: fs)
    | _, _ => none

/-- The command word of a mnemonic (30_encoding.md R153). -/
def wordOfMnemonic (m : String) : Option (BitVec 8) :=
  [("MAG", 0x01#8), ("MAGBLK", 0x02#8), ("STATS", 0x08#8), ("ABOVE", 0x09#8), ("BELOWHALF", 0x0A#8),
    ("PREAMBLE", 0x10#8), ("PPMBIT", 0x18#8), ("PPMFRAME", 0x19#8), ("CRCSTEP", 0x20#8), ("CRCREM", 0x21#8),
    ("CRCCHECK", 0x22#8), ("XBITS", 0x28#8), ("DFCHECK", 0x29#8), ("DECODE", 0x2A#8), ("PUSH", 0x30#8),
    ("POP", 0x31#8), ("FIFOSTAT", 0x32#8), ("SCANSTEP", 0x38#8), ("SCAN", 0x39#8), ("P_POLL", 0x40#8),
    ("P_PUSH", 0x41#8), ("P_END", 0x42#8), ("C_POP", 0x48#8), ("C_SCAN", 0x49#8), ("START", 0x50#8),
    ("CO_JOIN_P", 0x51#8), ("CO_JOIN_C", 0x52#8), ("H_SRC_OK", 0x58#8), ("H_SRC_ERR", 0x59#8),
    ("H_CANCEL", 0x5A#8)].lookup m

/-- The transaction a pseudo-operation line expands to (30_encoding.md R161): the operation shown, over the operands as
they are written, so an operand of the wrong kind reaches that operation and raises BAD_OPERAND there (R156). With another
number of operands the line has no expansion in R161, and so no event (DESIGN CHOICE, log 28). -/
def pseudoOf (m : String) (fs : List Field) : Option Request :=
  match m, fs with
  | "F_DF", [f] => some ⟨0x28, [f, .num 0, .num 5]⟩
  | "F_CA", [f] => some ⟨0x28, [f, .num 5, .num 8]⟩
  | "F_ICAO", [f] => some ⟨0x28, [f, .num 8, .num 32]⟩
  | "F_TYPE", [f] => some ⟨0x28, [f, .num 32, .num 37]⟩
  | "F_ALT", [f] => some ⟨0x28, [f, .num 40, .num 52]⟩
  | "F_T", [f] => some ⟨0x28, [f, .num 52, .num 53]⟩
  | "F_F", [f] => some ⟨0x28, [f, .num 53, .num 54]⟩
  | "F_LAT", [f] => some ⟨0x28, [f, .num 54, .num 71]⟩
  | "F_LON", [f] => some ⟨0x28, [f, .num 71, .num 88]⟩
  | "F_PI", [f] => some ⟨0x28, [f, .num 88, .num 112]⟩
  | "FRAME14", [mb, start] => some ⟨0x19, [mb, start, .num 224]⟩
  | "CANDIDATE", [mb, st, i] => some ⟨0x38, [mb, st, i]⟩
  | _, _ => none

/-- The transaction a line asks for. A name with no value that can stand as an operand, `Data` of a name that is no
buffer, and an unknown mnemonic make no line of R160, and so no transaction (DESIGN CHOICE, log 28). -/
def lineRequest (env : Bindings) (l : Line) : Option Request :=
  match argFields env l.args with
  | none => none
  | some fs =>
    match wordOfMnemonic l.mnemonic with
    | some w => some ⟨w, fs⟩
    | none => pseudoOf l.mnemonic fs

/-- The event of a line: an agent's step for a `step` mnemonic, the host's transaction or move otherwise. A step or host
move with operands that are not its own (P_POLL 5, START 5, H_SRC_OK alone) makes no line of R160, which writes it as its
mnemonic alone or as `H_SRC_OK blk`: it has no event (DESIGN CHOICE, log 28). -/
def lineEvent (env : Bindings) (l : Line) : Option Event :=
  match lineRequest env l with
  | none => none
  | some r =>
    match portOf r.word, decode r with
    | some .step, .ok _ => some (.agent r.word)
    | some .step, .error _ => none
    | some .host, .error _ => none
    | _, _ => some (.host r)

/-- The bindings after a line that went from state `s` to state `t`: its name is bound to the result the line itself gave,
the reply `t` holds beyond those of `s`. The spec does not say what a name is bound to when its line gives no result
(PUSH, a blocked POP, a fault, a step or a host move): the bindings then stay as they are, also when the blocked POP
completes after a later line (DESIGN CHOICE, log 26). -/
def bindReply (env : Bindings) (l : Line) (s t : State) : Bindings :=
  match l.dst, t.replies[s.replies.length]? with
  | some _, some ⟨_, .done⟩ => env
  | some x, some r => (x, r.result) :: env
  | _, _ => env

/-- The transactions waiting at the FIFO ports take their steps where they are enabled (46_fifo.md R394), first the
producer port's, then the consumer port's. -/
def settlePorts (s : State) : Out :=
  match fifoPortStep .producer s with
  | .next t => fifoPortStep .consumer t
  | o => o

/-- Run a program line by line from a state; none where a line asks for no event or a step gives no next state. No line of
R160 stands for a waiting PUSH or POP that completes: here it completes right after the line that enables it, before the
next line, as 95_test_vectors.md V-FIFO-4 has it follow the enabling command (DESIGN CHOICE, log 29). -/
def runLines : Bindings → State → List Line → Option State
  | _, s, [] => some s
  | env, s, l :: rest =>
    match lineEvent env l with
    | none => none
    | some ev =>
      match step { s with sched := ev :: s.sched } with
      | .next t =>
        match settlePorts t with
        | .next u => runLines (bindReply env l s t) u rest
        | .fault _ => none
        | .refused _ => none
      | .fault _ => none
      | .refused _ => none

end Sys2Proof.Machine
end

