-- ==== Sys2Proof/Laws/Assembler.lean ====
section
/-! SUPPORT. The pseudo-operation lines of 30_encoding.md R161 issue the operation `expandPseudo` names, what event a
line can have, and what settling the FIFO ports does. -/

namespace Sys2Proof.Machine

/-- Over operands of its own kinds a bit-field pseudo-operation line is the encoding of its expansion. -/
theorem pseudoOf_bitField (f : List Nat) :
    pseudoOf "F_DF" [.seq f] = some (encode (expandPseudo (.fDf f))) ∧
    pseudoOf "F_CA" [.seq f] = some (encode (expandPseudo (.fCa f))) ∧
    pseudoOf "F_ICAO" [.seq f] = some (encode (expandPseudo (.fIcao f))) ∧
    pseudoOf "F_TYPE" [.seq f] = some (encode (expandPseudo (.fType f))) ∧
    pseudoOf "F_ALT" [.seq f] = some (encode (expandPseudo (.fAlt f))) ∧
    pseudoOf "F_T" [.seq f] = some (encode (expandPseudo (.fT f))) ∧
    pseudoOf "F_F" [.seq f] = some (encode (expandPseudo (.fF f))) ∧
    pseudoOf "F_LAT" [.seq f] = some (encode (expandPseudo (.fLat f))) ∧
    pseudoOf "F_LON" [.seq f] = some (encode (expandPseudo (.fLon f))) ∧
    pseudoOf "F_PI" [.seq f] = some (encode (expandPseudo (.fPi f))) :=
  ⟨rfl, rfl, rfl, rfl, rfl, rfl, rfl, rfl, rfl, rfl⟩

/-- So is a framing pseudo-operation line. -/
theorem pseudoOf_framing (mb : List Nat) (st : Stats) (i : Nat) :
    pseudoOf "FRAME14" [.seq mb, .num i] = some (encode (expandPseudo (.frame14 mb i))) ∧
    pseudoOf "CANDIDATE" [.seq mb, .stats st, .num i] = some (encode (expandPseudo (.candidate mb st i))) :=
  ⟨rfl, rfl⟩

/-- The step of a FIFO port always gives a next state: the waiting transaction's, or the same state. -/
theorem fifoPortStep_isNext (p : FifoPort) (s : State) : ∃ t, fifoPortStep p s = .next t := by
  unfold fifoPortStep whenLive
  repeat' split
  all_goals exact ⟨_, rfl⟩

/-- Settling the ports is the producer port's step and then the consumer port's, and always gives a next state. -/
theorem settlePorts_eq (s : State) :
    ∃ t u, fifoPortStep .producer s = .next t ∧ fifoPortStep .consumer t = .next u ∧ settlePorts s = .next u := by
  obtain ⟨t, ht⟩ := fifoPortStep_isNext .producer s
  obtain ⟨u, hu⟩ := fifoPortStep_isNext .consumer t
  exact ⟨t, u, ht, hu, by rw [settlePorts, ht]; exact hu⟩

/-- An event of a line is the agent's step of an operation, or the host's transaction. -/
theorem lineEvent_eq_some {env : Bindings} {l : Line} {ev : Event} (h : lineEvent env l = some ev) :
    ∃ r, lineRequest env l = some r ∧
      ((portOf r.word = some .step ∧ (∃ i, decode r = .ok i) ∧ ev = .agent r.word) ∨
        (portOf r.word ≠ some .step ∧ ev = .host r)) := by
  unfold lineEvent at h
  split at h
  · cases h
  · rename_i r hr
    refine ⟨r, hr, ?_⟩
    split at h
    · injection h with h
      exact .inl ⟨by assumption, ⟨_, by assumption⟩, h.symm⟩
    · cases h
    · cases h
    · rename_i hok herr _
      injection h with h
      refine .inr ⟨fun hp => ?_, h.symm⟩
      cases hd : decode r with
      | ok i => exact hok i hp hd
      | error e => exact herr e hp hd

end Sys2Proof.Machine
end

