-- ==== Sys2Proof/Laws/State.lean ====
section
/-! SUPPORT. One lemma per field per named update of the state, true by rfl, so that no proof unfolds an update. -/

namespace Sys2Proof.Machine

/-! ### `State.setCo` -/

@[simp] theorem State.setCo_co (s : State) (v : CoordState) : (s.setCo v).sys.co = v := rfl
@[simp] theorem State.setCo_ps (s : State) (v : CoordState) : (s.setCo v).sys.ps = s.sys.ps := rfl
@[simp] theorem State.setCo_cs (s : State) (v : CoordState) : (s.setCo v).sys.cs = s.sys.cs := rfl
@[simp] theorem State.setCo_fifo (s : State) (v : CoordState) : (s.setCo v).sys.fifo = s.sys.fifo := rfl
@[simp] theorem State.setCo_cancel (s : State) (v : CoordState) : (s.setCo v).sys.cancel = s.sys.cancel := rfl
@[simp] theorem State.setCo_acqErr (s : State) (v : CoordState) : (s.setCo v).sys.acqErr = s.sys.acqErr := rfl
@[simp] theorem State.setCo_fault (s : State) (v : CoordState) : (s.setCo v).sys.fault = s.sys.fault := rfl
@[simp] theorem State.setCo_out (s : State) (v : CoordState) : (s.setCo v).sys.out = s.sys.out := rfl
@[simp] theorem State.setCo_status (s : State) (v : CoordState) : (s.setCo v).sys.status = s.sys.status := rfl
@[simp] theorem State.setCo_cfg (s : State) (v : CoordState) : (s.setCo v).cfg = s.cfg := rfl
@[simp] theorem State.setCo_units (s : State) (v : CoordState) : (s.setCo v).units = s.units := rfl
@[simp] theorem State.setCo_pushPort (s : State) (v : CoordState) : (s.setCo v).pushPort = s.pushPort := rfl
@[simp] theorem State.setCo_popPort (s : State) (v : CoordState) : (s.setCo v).popPort = s.popPort := rfl
@[simp] theorem State.setCo_replies (s : State) (v : CoordState) : (s.setCo v).replies = s.replies := rfl
@[simp] theorem State.setCo_sched (s : State) (v : CoordState) : (s.setCo v).sched = s.sched := rfl

/-! ### `State.setPs` -/

@[simp] theorem State.setPs_co (s : State) (v : ProdState) : (s.setPs v).sys.co = s.sys.co := rfl
@[simp] theorem State.setPs_ps (s : State) (v : ProdState) : (s.setPs v).sys.ps = v := rfl
@[simp] theorem State.setPs_cs (s : State) (v : ProdState) : (s.setPs v).sys.cs = s.sys.cs := rfl
@[simp] theorem State.setPs_fifo (s : State) (v : ProdState) : (s.setPs v).sys.fifo = s.sys.fifo := rfl
@[simp] theorem State.setPs_cancel (s : State) (v : ProdState) : (s.setPs v).sys.cancel = s.sys.cancel := rfl
@[simp] theorem State.setPs_acqErr (s : State) (v : ProdState) : (s.setPs v).sys.acqErr = s.sys.acqErr := rfl
@[simp] theorem State.setPs_fault (s : State) (v : ProdState) : (s.setPs v).sys.fault = s.sys.fault := rfl
@[simp] theorem State.setPs_out (s : State) (v : ProdState) : (s.setPs v).sys.out = s.sys.out := rfl
@[simp] theorem State.setPs_status (s : State) (v : ProdState) : (s.setPs v).sys.status = s.sys.status := rfl
@[simp] theorem State.setPs_cfg (s : State) (v : ProdState) : (s.setPs v).cfg = s.cfg := rfl
@[simp] theorem State.setPs_units (s : State) (v : ProdState) : (s.setPs v).units = s.units := rfl
@[simp] theorem State.setPs_pushPort (s : State) (v : ProdState) : (s.setPs v).pushPort = s.pushPort := rfl
@[simp] theorem State.setPs_popPort (s : State) (v : ProdState) : (s.setPs v).popPort = s.popPort := rfl
@[simp] theorem State.setPs_replies (s : State) (v : ProdState) : (s.setPs v).replies = s.replies := rfl
@[simp] theorem State.setPs_sched (s : State) (v : ProdState) : (s.setPs v).sched = s.sched := rfl

/-! ### `State.setCs` -/

@[simp] theorem State.setCs_co (s : State) (v : ConsState) : (s.setCs v).sys.co = s.sys.co := rfl
@[simp] theorem State.setCs_ps (s : State) (v : ConsState) : (s.setCs v).sys.ps = s.sys.ps := rfl
@[simp] theorem State.setCs_cs (s : State) (v : ConsState) : (s.setCs v).sys.cs = v := rfl
@[simp] theorem State.setCs_fifo (s : State) (v : ConsState) : (s.setCs v).sys.fifo = s.sys.fifo := rfl
@[simp] theorem State.setCs_cancel (s : State) (v : ConsState) : (s.setCs v).sys.cancel = s.sys.cancel := rfl
@[simp] theorem State.setCs_acqErr (s : State) (v : ConsState) : (s.setCs v).sys.acqErr = s.sys.acqErr := rfl
@[simp] theorem State.setCs_fault (s : State) (v : ConsState) : (s.setCs v).sys.fault = s.sys.fault := rfl
@[simp] theorem State.setCs_out (s : State) (v : ConsState) : (s.setCs v).sys.out = s.sys.out := rfl
@[simp] theorem State.setCs_status (s : State) (v : ConsState) : (s.setCs v).sys.status = s.sys.status := rfl
@[simp] theorem State.setCs_cfg (s : State) (v : ConsState) : (s.setCs v).cfg = s.cfg := rfl
@[simp] theorem State.setCs_units (s : State) (v : ConsState) : (s.setCs v).units = s.units := rfl
@[simp] theorem State.setCs_pushPort (s : State) (v : ConsState) : (s.setCs v).pushPort = s.pushPort := rfl
@[simp] theorem State.setCs_popPort (s : State) (v : ConsState) : (s.setCs v).popPort = s.popPort := rfl
@[simp] theorem State.setCs_replies (s : State) (v : ConsState) : (s.setCs v).replies = s.replies := rfl
@[simp] theorem State.setCs_sched (s : State) (v : ConsState) : (s.setCs v).sched = s.sched := rfl

/-! ### `State.setFifo` -/

@[simp] theorem State.setFifo_co (s : State) (v : List Entry) : (s.setFifo v).sys.co = s.sys.co := rfl
@[simp] theorem State.setFifo_ps (s : State) (v : List Entry) : (s.setFifo v).sys.ps = s.sys.ps := rfl
@[simp] theorem State.setFifo_cs (s : State) (v : List Entry) : (s.setFifo v).sys.cs = s.sys.cs := rfl
@[simp] theorem State.setFifo_fifo (s : State) (v : List Entry) : (s.setFifo v).sys.fifo = v := rfl
@[simp] theorem State.setFifo_cancel (s : State) (v : List Entry) : (s.setFifo v).sys.cancel = s.sys.cancel := rfl
@[simp] theorem State.setFifo_acqErr (s : State) (v : List Entry) : (s.setFifo v).sys.acqErr = s.sys.acqErr := rfl
@[simp] theorem State.setFifo_fault (s : State) (v : List Entry) : (s.setFifo v).sys.fault = s.sys.fault := rfl
@[simp] theorem State.setFifo_out (s : State) (v : List Entry) : (s.setFifo v).sys.out = s.sys.out := rfl
@[simp] theorem State.setFifo_status (s : State) (v : List Entry) : (s.setFifo v).sys.status = s.sys.status := rfl
@[simp] theorem State.setFifo_cfg (s : State) (v : List Entry) : (s.setFifo v).cfg = s.cfg := rfl
@[simp] theorem State.setFifo_units (s : State) (v : List Entry) : (s.setFifo v).units = s.units := rfl
@[simp] theorem State.setFifo_pushPort (s : State) (v : List Entry) : (s.setFifo v).pushPort = s.pushPort := rfl
@[simp] theorem State.setFifo_popPort (s : State) (v : List Entry) : (s.setFifo v).popPort = s.popPort := rfl
@[simp] theorem State.setFifo_replies (s : State) (v : List Entry) : (s.setFifo v).replies = s.replies := rfl
@[simp] theorem State.setFifo_sched (s : State) (v : List Entry) : (s.setFifo v).sched = s.sched := rfl

/-! ### `State.setCancel` -/

@[simp] theorem State.setCancel_co (s : State) (v : Bool) : (s.setCancel v).sys.co = s.sys.co := rfl
@[simp] theorem State.setCancel_ps (s : State) (v : Bool) : (s.setCancel v).sys.ps = s.sys.ps := rfl
@[simp] theorem State.setCancel_cs (s : State) (v : Bool) : (s.setCancel v).sys.cs = s.sys.cs := rfl
@[simp] theorem State.setCancel_fifo (s : State) (v : Bool) : (s.setCancel v).sys.fifo = s.sys.fifo := rfl
@[simp] theorem State.setCancel_cancel (s : State) (v : Bool) : (s.setCancel v).sys.cancel = v := rfl
@[simp] theorem State.setCancel_acqErr (s : State) (v : Bool) : (s.setCancel v).sys.acqErr = s.sys.acqErr := rfl
@[simp] theorem State.setCancel_fault (s : State) (v : Bool) : (s.setCancel v).sys.fault = s.sys.fault := rfl
@[simp] theorem State.setCancel_out (s : State) (v : Bool) : (s.setCancel v).sys.out = s.sys.out := rfl
@[simp] theorem State.setCancel_status (s : State) (v : Bool) : (s.setCancel v).sys.status = s.sys.status := rfl
@[simp] theorem State.setCancel_cfg (s : State) (v : Bool) : (s.setCancel v).cfg = s.cfg := rfl
@[simp] theorem State.setCancel_units (s : State) (v : Bool) : (s.setCancel v).units = s.units := rfl
@[simp] theorem State.setCancel_pushPort (s : State) (v : Bool) : (s.setCancel v).pushPort = s.pushPort := rfl
@[simp] theorem State.setCancel_popPort (s : State) (v : Bool) : (s.setCancel v).popPort = s.popPort := rfl
@[simp] theorem State.setCancel_replies (s : State) (v : Bool) : (s.setCancel v).replies = s.replies := rfl
@[simp] theorem State.setCancel_sched (s : State) (v : Bool) : (s.setCancel v).sched = s.sched := rfl

/-! ### `State.setAcqErr` -/

@[simp] theorem State.setAcqErr_co (s : State) (v : Bool) : (s.setAcqErr v).sys.co = s.sys.co := rfl
@[simp] theorem State.setAcqErr_ps (s : State) (v : Bool) : (s.setAcqErr v).sys.ps = s.sys.ps := rfl
@[simp] theorem State.setAcqErr_cs (s : State) (v : Bool) : (s.setAcqErr v).sys.cs = s.sys.cs := rfl
@[simp] theorem State.setAcqErr_fifo (s : State) (v : Bool) : (s.setAcqErr v).sys.fifo = s.sys.fifo := rfl
@[simp] theorem State.setAcqErr_cancel (s : State) (v : Bool) : (s.setAcqErr v).sys.cancel = s.sys.cancel := rfl
@[simp] theorem State.setAcqErr_acqErr (s : State) (v : Bool) : (s.setAcqErr v).sys.acqErr = v := rfl
@[simp] theorem State.setAcqErr_fault (s : State) (v : Bool) : (s.setAcqErr v).sys.fault = s.sys.fault := rfl
@[simp] theorem State.setAcqErr_out (s : State) (v : Bool) : (s.setAcqErr v).sys.out = s.sys.out := rfl
@[simp] theorem State.setAcqErr_status (s : State) (v : Bool) : (s.setAcqErr v).sys.status = s.sys.status := rfl
@[simp] theorem State.setAcqErr_cfg (s : State) (v : Bool) : (s.setAcqErr v).cfg = s.cfg := rfl
@[simp] theorem State.setAcqErr_units (s : State) (v : Bool) : (s.setAcqErr v).units = s.units := rfl
@[simp] theorem State.setAcqErr_pushPort (s : State) (v : Bool) : (s.setAcqErr v).pushPort = s.pushPort := rfl
@[simp] theorem State.setAcqErr_popPort (s : State) (v : Bool) : (s.setAcqErr v).popPort = s.popPort := rfl
@[simp] theorem State.setAcqErr_replies (s : State) (v : Bool) : (s.setAcqErr v).replies = s.replies := rfl
@[simp] theorem State.setAcqErr_sched (s : State) (v : Bool) : (s.setAcqErr v).sched = s.sched := rfl

/-! ### `State.setFault` -/

@[simp] theorem State.setFault_co (s : State) (v : Option FaultRec) : (s.setFault v).sys.co = s.sys.co := rfl
@[simp] theorem State.setFault_ps (s : State) (v : Option FaultRec) : (s.setFault v).sys.ps = s.sys.ps := rfl
@[simp] theorem State.setFault_cs (s : State) (v : Option FaultRec) : (s.setFault v).sys.cs = s.sys.cs := rfl
@[simp] theorem State.setFault_fifo (s : State) (v : Option FaultRec) : (s.setFault v).sys.fifo = s.sys.fifo := rfl
@[simp] theorem State.setFault_cancel (s : State) (v : Option FaultRec) : (s.setFault v).sys.cancel = s.sys.cancel := rfl
@[simp] theorem State.setFault_acqErr (s : State) (v : Option FaultRec) : (s.setFault v).sys.acqErr = s.sys.acqErr := rfl
@[simp] theorem State.setFault_fault (s : State) (v : Option FaultRec) : (s.setFault v).sys.fault = v := rfl
@[simp] theorem State.setFault_out (s : State) (v : Option FaultRec) : (s.setFault v).sys.out = s.sys.out := rfl
@[simp] theorem State.setFault_status (s : State) (v : Option FaultRec) : (s.setFault v).sys.status = s.sys.status := rfl
@[simp] theorem State.setFault_cfg (s : State) (v : Option FaultRec) : (s.setFault v).cfg = s.cfg := rfl
@[simp] theorem State.setFault_units (s : State) (v : Option FaultRec) : (s.setFault v).units = s.units := rfl
@[simp] theorem State.setFault_pushPort (s : State) (v : Option FaultRec) : (s.setFault v).pushPort = s.pushPort := rfl
@[simp] theorem State.setFault_popPort (s : State) (v : Option FaultRec) : (s.setFault v).popPort = s.popPort := rfl
@[simp] theorem State.setFault_replies (s : State) (v : Option FaultRec) : (s.setFault v).replies = s.replies := rfl
@[simp] theorem State.setFault_sched (s : State) (v : Option FaultRec) : (s.setFault v).sched = s.sched := rfl

/-! ### `State.setOut` -/

@[simp] theorem State.setOut_co (s : State) (v : List Packet) : (s.setOut v).sys.co = s.sys.co := rfl
@[simp] theorem State.setOut_ps (s : State) (v : List Packet) : (s.setOut v).sys.ps = s.sys.ps := rfl
@[simp] theorem State.setOut_cs (s : State) (v : List Packet) : (s.setOut v).sys.cs = s.sys.cs := rfl
@[simp] theorem State.setOut_fifo (s : State) (v : List Packet) : (s.setOut v).sys.fifo = s.sys.fifo := rfl
@[simp] theorem State.setOut_cancel (s : State) (v : List Packet) : (s.setOut v).sys.cancel = s.sys.cancel := rfl
@[simp] theorem State.setOut_acqErr (s : State) (v : List Packet) : (s.setOut v).sys.acqErr = s.sys.acqErr := rfl
@[simp] theorem State.setOut_fault (s : State) (v : List Packet) : (s.setOut v).sys.fault = s.sys.fault := rfl
@[simp] theorem State.setOut_out (s : State) (v : List Packet) : (s.setOut v).sys.out = v := rfl
@[simp] theorem State.setOut_status (s : State) (v : List Packet) : (s.setOut v).sys.status = s.sys.status := rfl
@[simp] theorem State.setOut_cfg (s : State) (v : List Packet) : (s.setOut v).cfg = s.cfg := rfl
@[simp] theorem State.setOut_units (s : State) (v : List Packet) : (s.setOut v).units = s.units := rfl
@[simp] theorem State.setOut_pushPort (s : State) (v : List Packet) : (s.setOut v).pushPort = s.pushPort := rfl
@[simp] theorem State.setOut_popPort (s : State) (v : List Packet) : (s.setOut v).popPort = s.popPort := rfl
@[simp] theorem State.setOut_replies (s : State) (v : List Packet) : (s.setOut v).replies = s.replies := rfl
@[simp] theorem State.setOut_sched (s : State) (v : List Packet) : (s.setOut v).sched = s.sched := rfl

/-! ### `State.setStatus` -/

@[simp] theorem State.setStatus_co (s : State) (v : Option ExitStatus) : (s.setStatus v).sys.co = s.sys.co := rfl
@[simp] theorem State.setStatus_ps (s : State) (v : Option ExitStatus) : (s.setStatus v).sys.ps = s.sys.ps := rfl
@[simp] theorem State.setStatus_cs (s : State) (v : Option ExitStatus) : (s.setStatus v).sys.cs = s.sys.cs := rfl
@[simp] theorem State.setStatus_fifo (s : State) (v : Option ExitStatus) : (s.setStatus v).sys.fifo = s.sys.fifo := rfl
@[simp] theorem State.setStatus_cancel (s : State) (v : Option ExitStatus) : (s.setStatus v).sys.cancel = s.sys.cancel := rfl
@[simp] theorem State.setStatus_acqErr (s : State) (v : Option ExitStatus) : (s.setStatus v).sys.acqErr = s.sys.acqErr := rfl
@[simp] theorem State.setStatus_fault (s : State) (v : Option ExitStatus) : (s.setStatus v).sys.fault = s.sys.fault := rfl
@[simp] theorem State.setStatus_out (s : State) (v : Option ExitStatus) : (s.setStatus v).sys.out = s.sys.out := rfl
@[simp] theorem State.setStatus_status (s : State) (v : Option ExitStatus) : (s.setStatus v).sys.status = v := rfl
@[simp] theorem State.setStatus_cfg (s : State) (v : Option ExitStatus) : (s.setStatus v).cfg = s.cfg := rfl
@[simp] theorem State.setStatus_units (s : State) (v : Option ExitStatus) : (s.setStatus v).units = s.units := rfl
@[simp] theorem State.setStatus_pushPort (s : State) (v : Option ExitStatus) : (s.setStatus v).pushPort = s.pushPort := rfl
@[simp] theorem State.setStatus_popPort (s : State) (v : Option ExitStatus) : (s.setStatus v).popPort = s.popPort := rfl
@[simp] theorem State.setStatus_replies (s : State) (v : Option ExitStatus) : (s.setStatus v).replies = s.replies := rfl
@[simp] theorem State.setStatus_sched (s : State) (v : Option ExitStatus) : (s.setStatus v).sched = s.sched := rfl

/-! ### `State.setUnits` -/

@[simp] theorem State.setUnits_sys (s : State) (v : Units) : (s.setUnits v).sys = s.sys := rfl
@[simp] theorem State.setUnits_cfg (s : State) (v : Units) : (s.setUnits v).cfg = s.cfg := rfl
@[simp] theorem State.setUnits_units (s : State) (v : Units) : (s.setUnits v).units = v := rfl
@[simp] theorem State.setUnits_pushPort (s : State) (v : Units) : (s.setUnits v).pushPort = s.pushPort := rfl
@[simp] theorem State.setUnits_popPort (s : State) (v : Units) : (s.setUnits v).popPort = s.popPort := rfl
@[simp] theorem State.setUnits_replies (s : State) (v : Units) : (s.setUnits v).replies = s.replies := rfl
@[simp] theorem State.setUnits_sched (s : State) (v : Units) : (s.setUnits v).sched = s.sched := rfl

/-! ### `State.setPushPort` -/

@[simp] theorem State.setPushPort_sys (s : State) (v : Option Entry) : (s.setPushPort v).sys = s.sys := rfl
@[simp] theorem State.setPushPort_cfg (s : State) (v : Option Entry) : (s.setPushPort v).cfg = s.cfg := rfl
@[simp] theorem State.setPushPort_units (s : State) (v : Option Entry) : (s.setPushPort v).units = s.units := rfl
@[simp] theorem State.setPushPort_pushPort (s : State) (v : Option Entry) : (s.setPushPort v).pushPort = v := rfl
@[simp] theorem State.setPushPort_popPort (s : State) (v : Option Entry) : (s.setPushPort v).popPort = s.popPort := rfl
@[simp] theorem State.setPushPort_replies (s : State) (v : Option Entry) : (s.setPushPort v).replies = s.replies := rfl
@[simp] theorem State.setPushPort_sched (s : State) (v : Option Entry) : (s.setPushPort v).sched = s.sched := rfl

/-! ### `State.setPopPort` -/

@[simp] theorem State.setPopPort_sys (s : State) (v : Bool) : (s.setPopPort v).sys = s.sys := rfl
@[simp] theorem State.setPopPort_cfg (s : State) (v : Bool) : (s.setPopPort v).cfg = s.cfg := rfl
@[simp] theorem State.setPopPort_units (s : State) (v : Bool) : (s.setPopPort v).units = s.units := rfl
@[simp] theorem State.setPopPort_pushPort (s : State) (v : Bool) : (s.setPopPort v).pushPort = s.pushPort := rfl
@[simp] theorem State.setPopPort_popPort (s : State) (v : Bool) : (s.setPopPort v).popPort = v := rfl
@[simp] theorem State.setPopPort_replies (s : State) (v : Bool) : (s.setPopPort v).replies = s.replies := rfl
@[simp] theorem State.setPopPort_sched (s : State) (v : Bool) : (s.setPopPort v).sched = s.sched := rfl

/-! ### `State.setSched` -/

@[simp] theorem State.setSched_sys (s : State) (v : List Event) : (s.setSched v).sys = s.sys := rfl
@[simp] theorem State.setSched_cfg (s : State) (v : List Event) : (s.setSched v).cfg = s.cfg := rfl
@[simp] theorem State.setSched_units (s : State) (v : List Event) : (s.setSched v).units = s.units := rfl
@[simp] theorem State.setSched_pushPort (s : State) (v : List Event) : (s.setSched v).pushPort = s.pushPort := rfl
@[simp] theorem State.setSched_popPort (s : State) (v : List Event) : (s.setSched v).popPort = s.popPort := rfl
@[simp] theorem State.setSched_replies (s : State) (v : List Event) : (s.setSched v).replies = s.replies := rfl
@[simp] theorem State.setSched_sched (s : State) (v : List Event) : (s.setSched v).sched = v := rfl

/-! ### `State.addReply` -/

@[simp] theorem State.addReply_sys (s : State) (op : BitVec 8) (v : Result) : (s.addReply op v).sys = s.sys := rfl
@[simp] theorem State.addReply_cfg (s : State) (op : BitVec 8) (v : Result) : (s.addReply op v).cfg = s.cfg := rfl
@[simp] theorem State.addReply_units (s : State) (op : BitVec 8) (v : Result) : (s.addReply op v).units = s.units := rfl
@[simp] theorem State.addReply_pushPort (s : State) (op : BitVec 8) (v : Result) : (s.addReply op v).pushPort = s.pushPort := rfl
@[simp] theorem State.addReply_popPort (s : State) (op : BitVec 8) (v : Result) : (s.addReply op v).popPort = s.popPort := rfl
@[simp] theorem State.addReply_replies (s : State) (op : BitVec 8) (v : Result) : (s.addReply op v).replies = s.replies ++ [⟨op, v⟩] := rfl
@[simp] theorem State.addReply_sched (s : State) (op : BitVec 8) (v : Result) : (s.addReply op v).sched = s.sched := rfl

/-! ### `State.emit` -/

@[simp] theorem State.emit_co (s : State) (p : Packet) : (s.emit p).sys.co = s.sys.co := rfl
@[simp] theorem State.emit_ps (s : State) (p : Packet) : (s.emit p).sys.ps = s.sys.ps := rfl
@[simp] theorem State.emit_cs (s : State) (p : Packet) : (s.emit p).sys.cs = s.sys.cs := rfl
@[simp] theorem State.emit_fifo (s : State) (p : Packet) : (s.emit p).sys.fifo = s.sys.fifo := rfl
@[simp] theorem State.emit_cancel (s : State) (p : Packet) : (s.emit p).sys.cancel = s.sys.cancel := rfl
@[simp] theorem State.emit_acqErr (s : State) (p : Packet) : (s.emit p).sys.acqErr = s.sys.acqErr := rfl
@[simp] theorem State.emit_fault (s : State) (p : Packet) : (s.emit p).sys.fault = s.sys.fault := rfl
@[simp] theorem State.emit_out (s : State) (p : Packet) : (s.emit p).sys.out = s.sys.out ++ [p] := rfl
@[simp] theorem State.emit_status (s : State) (p : Packet) : (s.emit p).sys.status = s.sys.status := rfl
@[simp] theorem State.emit_cfg (s : State) (p : Packet) : (s.emit p).cfg = s.cfg := rfl
@[simp] theorem State.emit_units (s : State) (p : Packet) : (s.emit p).units = s.units := rfl
@[simp] theorem State.emit_pushPort (s : State) (p : Packet) : (s.emit p).pushPort = s.pushPort := rfl
@[simp] theorem State.emit_popPort (s : State) (p : Packet) : (s.emit p).popPort = s.popPort := rfl
@[simp] theorem State.emit_replies (s : State) (p : Packet) : (s.emit p).replies = s.replies := rfl
@[simp] theorem State.emit_sched (s : State) (p : Packet) : (s.emit p).sched = s.sched := rfl

/-! ### `State.afterReset` -/

@[simp] theorem State.afterReset_sys (s : State) : s.afterReset.sys = Sys.reset := rfl
@[simp] theorem State.afterReset_cfg (s : State) : s.afterReset.cfg = s.cfg := rfl
@[simp] theorem State.afterReset_units (s : State) : s.afterReset.units = Units.reset := rfl
@[simp] theorem State.afterReset_pushPort (s : State) : s.afterReset.pushPort = none := rfl
@[simp] theorem State.afterReset_popPort (s : State) : s.afterReset.popPort = false := rfl
@[simp] theorem State.afterReset_replies (s : State) : s.afterReset.replies = [] := rfl
@[simp] theorem State.afterReset_sched (s : State) : s.afterReset.sched = s.sched := rfl

/-! ### `Units.withStats` -/

@[simp] theorem Units.withStats_crcReg (u : Units) (st : Stats) : (u.withStats st).crcReg = u.crcReg := rfl
@[simp] theorem Units.withStats_frame (u : Units) (st : Stats) : (u.withStats st).frame = u.frame := rfl
@[simp] theorem Units.withStats_n (u : Units) (st : Stats) : (u.withStats st).n = st.n := rfl
@[simp] theorem Units.withStats_s1 (u : Units) (st : Stats) : (u.withStats st).s1 = st.s1 := rfl
@[simp] theorem Units.withStats_s2 (u : Units) (st : Stats) : (u.withStats st).s2 = st.s2 := rfl

end Sys2Proof.Machine
end

