-- ==== Sys2Proof/Laws/Ops.lean ====
section
/-! SUPPORT. What each shared operation can do, said once: raising, halting, replying, the FIFO's two operations and the
operand checks. -/

namespace Sys2Proof.Machine

/-! ## Raising and halting -/

theorem State.raise_of_live {s : State} (h : Live s) (op : BitVec 8) (f : Raise) :
    s.raise op f = s.setFault (some ⟨f.kind.code, op, f.info⟩) := by
  simp [State.raise, h]

/-- The first fault is kept (60_exceptions.md R482). -/
theorem State.raise_of_fault {s : State} {r : FaultRec} (h : s.sys.fault = some r) (op : BitVec 8) (f : Raise) :
    s.raise op f = s := by
  simp [State.raise, h]

/-- A raise leaves a fault behind. -/
theorem State.raise_fault_ne_none (s : State) (op : BitVec 8) (f : Raise) : (s.raise op f).sys.fault ≠ none := by
  unfold State.raise
  split <;> simp_all

theorem whenLive_of_live {s : State} (h : Live s) (r : Out) : whenLive s r = r := by
  simp [whenLive, h]

theorem whenLive_of_fault {s : State} {f : FaultRec} (h : s.sys.fault = some f) (r : Out) : whenLive s r = .next s := by
  simp [whenLive, h]

/-- `whenLive` either keeps the state of a halted CORE or is the outcome of a live one. -/
theorem whenLive_next {s t : State} {r : Out} (h : whenLive s r = .next t) :
    (s.sys.fault ≠ none ∧ t = s) ∨ (Live s ∧ r = .next t) := by
  unfold whenLive at h
  split at h
  · exact .inr ⟨by assumption, h⟩
  · rename_i f hf
    injection h with h
    exact .inl ⟨by simp [hf], h.symm⟩

@[simp] theorem finish_ok (op : BitVec 8) (s t : State) : finish op s (.ok t) = .next t := rfl

@[simp] theorem finish_error (op : BitVec 8) (s : State) (f : Raise) : finish op s (.error f) = .next (s.raise op f) := rfl

/-- `finish` always answers a next state: the operation's, or the raise. -/
theorem finish_next {op : BitVec 8} {s t : State} {r : Except Raise State} (h : finish op s r = .next t) :
    r = .ok t ∨ ∃ f, r = .error f ∧ t = s.raise op f := by
  cases r with
  | ok u => simp only [finish_ok] at h; injection h with h; exact .inl (by rw [h])
  | error f => simp only [finish_error] at h; injection h with h; exact .inr ⟨f, rfl, h.symm⟩

theorem command_ok {s : State} (h : Live s) (op : BitVec 8) (v : Result) (u : Units) :
    command op s (.ok (v, u)) = .next ((s.setUnits u).addReply op v) := by
  simp [command, whenLive_of_live h, Except.map]

theorem command_error {s : State} (h : Live s) (op : BitVec 8) (f : Raise) :
    command op s (.error f) = .next (s.raise op f) := by
  simp [command, whenLive_of_live h, Except.map]

theorem command_of_fault {s : State} {f : FaultRec} (h : s.sys.fault = some f) (op : BitVec 8)
    (r : Except Raise (Result × Units)) : command op s r = .next s :=
  whenLive_of_fault h _

/-- Everything a command-port transaction over the datapath can do (30_encoding.md R159). -/
theorem command_next {op : BitVec 8} {s t : State} {r : Except Raise (Result × Units)} (h : command op s r = .next t) :
    (s.sys.fault ≠ none ∧ t = s) ∨
    (Live s ∧ ∃ v u, r = .ok (v, u) ∧ t = (s.setUnits u).addReply op v) ∨
    (Live s ∧ ∃ f, r = .error f ∧ t = s.raise op f) := by
  rcases whenLive_next h with h | ⟨hl, h⟩
  · exact .inl h
  · cases r with
    | ok v => rw [Except.map, finish_ok] at h; injection h with h; exact .inr (.inl ⟨hl, v.1, v.2, rfl, h.symm⟩)
    | error f => rw [Except.map, finish_error] at h; injection h with h; exact .inr (.inr ⟨hl, f, rfl, h.symm⟩)

/-! ## The FIFO -/

theorem fifoPush_eq_some {k : Nat} {q q' : List Entry} {e : Entry} :
    fifoPush k q e = some q' ↔ q.length < k ∧ q' = q ++ [e] := by
  unfold fifoPush
  split <;> simp_all [eq_comm]

theorem fifoPush_eq_none {k : Nat} {q : List Entry} {e : Entry} : fifoPush k q e = none ↔ k ≤ q.length := by
  unfold fifoPush
  split <;> simp <;> omega

theorem fifoPop_eq_some {q q' : List Entry} {e : Entry} : fifoPop q = some (e, q') ↔ q = e :: q' := by
  cases q <;> simp [fifoPop]

theorem fifoPop_eq_none {q : List Entry} : fifoPop q = none ↔ q = [] := by
  cases q <;> simp [fifoPop]

/-! ## Operand checks -/

theorem checkNum_eq_ok {w pos v : Nat} : checkNum w pos v = .ok () ↔ v < 2 ^ w := by
  unfold checkNum
  split <;> simp_all

theorem checkNum_of_lt {w pos v : Nat} (h : v < 2 ^ w) : checkNum w pos v = .ok () := checkNum_eq_ok.2 h

theorem checkNum_of_ge {w pos v : Nat} (h : 2 ^ w ≤ v) : checkNum w pos v = .error (badOperand pos v) := by
  simp [checkNum, Nat.not_lt.2 h]

@[simp] theorem seqBelow_nil (w : Nat) : seqBelow w [] = true := rfl

@[simp] theorem seqBelow_cons (w x : Nat) (xs : List Nat) :
    seqBelow w (x :: xs) = (decide (x < 2 ^ w) && seqBelow w xs) := rfl

theorem checkSeq_of_seqBelow {w pos : Nat} {xs : List Nat} (h : seqBelow w xs = true) : checkSeq w pos xs = .ok () := by
  induction xs with
  | nil => rfl
  | cons x xs ih =>
    simp only [seqBelow_cons, Bool.and_eq_true, decide_eq_true_eq] at h
    simp [checkSeq, h.1, ih h.2]

/-- A sequence outside its type raises BAD_OPERAND for its first offending element (60_exceptions.md R479). -/
theorem checkSeq_of_not_seqBelow {w pos : Nat} {xs : List Nat} (h : seqBelow w xs = false) :
    ∃ pre x post, xs = pre ++ x :: post ∧ seqBelow w pre = true ∧ 2 ^ w ≤ x ∧
      checkSeq w pos xs = .error (badOperand pos x) := by
  induction xs with
  | nil => simp at h
  | cons x xs ih =>
    by_cases hx : x < 2 ^ w
    · have hr : seqBelow w xs = false := by simpa [hx] using h
      obtain ⟨pre, y, post, hxs, hpre, hy, hc⟩ := ih hr
      exact ⟨x :: pre, y, post, by simp [hxs], by simp [hx, hpre], hy, by simp [checkSeq, hx, hc]⟩
    · exact ⟨[], x, xs, rfl, rfl, Nat.le_of_not_lt hx, by simp [checkSeq, hx]⟩

theorem checkSeq_eq_ok {w pos : Nat} {xs : List Nat} : checkSeq w pos xs = .ok () ↔ seqBelow w xs = true := by
  constructor
  · intro h
    by_contra hn
    obtain ⟨_, _, _, _, _, _, hc⟩ := checkSeq_of_not_seqBelow (pos := pos) (by simpa using hn)
    simp [hc] at h
  · exact checkSeq_of_seqBelow

theorem checkEntry_eq_ok {pos : Nat} {e : Entry} : checkEntry pos e = .ok () ↔ e.wf = true := by
  cases e with
  | data mb => exact checkSeq_eq_ok
  | endMark => simp [checkEntry, Entry.wf]

@[simp] theorem after_ok {α : Type} (u : Unit) (r : Except Raise α) : after (.ok u) r = r := rfl

@[simp] theorem after_error {α : Type} (f : Raise) (r : Except Raise α) : after (.error f) r = .error f := rfl

theorem after_eq_ok {α : Type} {c : Except Raise Unit} {r : Except Raise α} {v : α} :
    after c r = .ok v ↔ c = .ok () ∧ r = .ok v := by
  cases c <;> simp

/-! ## A field against its declared type -/

theorem checkField_nat {pos : Nat} {f : Field} : checkField pos .nat f = .ok () ↔ ∃ n, f = .num n := by
  cases f <;> simp [checkField]

theorem checkField_u {pos w : Nat} {f : Field} : checkField pos (.u w) f = .ok () ↔ ∃ v, f = .num v ∧ v < 2 ^ w := by
  cases f <;> simp [checkField, checkNum_eq_ok]

theorem checkField_seqOf {pos w : Nat} {f : Field} :
    checkField pos (.seqOf w) f = .ok () ↔ ∃ xs, f = .seq xs ∧ seqBelow w xs = true := by
  cases f <;> simp [checkField, checkSeq_eq_ok]

theorem checkField_stats {pos : Nat} {f : Field} : checkField pos .stats f = .ok () ↔ ∃ st, f = .stats st := by
  cases f <;> simp [checkField]

theorem checkField_entry {pos : Nat} {f : Field} :
    checkField pos .entry f = .ok () ↔ ∃ e, f = .entry e ∧ e.wf = true := by
  cases f <;> simp [checkField, checkEntry_eq_ok]

theorem checkFields_nil {pos : Nat} {fs : List Field} : checkFields pos [] fs = .ok () ↔ fs = [] := by
  cases fs <;> simp [checkFields]

theorem checkFields_cons {pos : Nat} {t : OperandType} {ts : List OperandType} {fs : List Field} :
    checkFields pos (t :: ts) fs = .ok () ↔
      ∃ f rest, fs = f :: rest ∧ checkField pos t f = .ok () ∧ checkFields (pos + 1) ts rest = .ok () := by
  cases fs <;> simp [checkFields, after_eq_ok]

end Sys2Proof.Machine
end

