-- ==== Sys2Proof/Laws/Datapath.lean ====
section
/-! SUPPORT. What the datapath functions give, said once: lengths, sums, and when an operation raises. -/

namespace Sys2Proof.Machine

/-! ## Magnitudes -/

@[simp] theorem pairMagnitudes_nil (c : Nat) : pairMagnitudes c [] = [] := rfl

@[simp] theorem pairMagnitudes_cons_cons (c i q : Nat) (rest : List Nat) :
    pairMagnitudes c (i :: q :: rest) = magnitude c i q :: pairMagnitudes c rest := rfl

theorem magBlock_ok {c : Nat} {blk : List Nat} (hb : seqBelow 8 blk = true) (he : blk.length % 2 = 0) :
    magBlock c blk = .ok (pairMagnitudes c blk) := by
  simp [magBlock, checkBytes, checkSeq_of_seqBelow hb, he]

theorem magBlock_eq_ok {c : Nat} {blk mb : List Nat} :
    magBlock c blk = .ok mb ↔ seqBelow 8 blk = true ∧ blk.length % 2 = 0 ∧ mb = pairMagnitudes c blk := by
  have h1 : (if blk.length % 2 ≠ 0 then (.error ⟨.badBlock, [blk.length]⟩ : Except Raise (List Nat))
      else .ok (pairMagnitudes c blk)) = .ok mb ↔ blk.length % 2 = 0 ∧ mb = pairMagnitudes c blk := by
    by_cases he : blk.length % 2 = 0
    · rw [if_neg (not_not.2 he)]
      exact ⟨fun hc => ⟨he, (Except.ok.inj hc).symm⟩, fun hc => by rw [hc.2]⟩
    · rw [if_pos he]
      exact ⟨fun hc => (nomatch hc), fun hc => absurd hc.1 he⟩
  rw [magBlock, after_eq_ok, checkBytes, checkSeq_eq_ok, h1]

/-! ## Statistics -/

theorem foldl_accumulate (mb : List Nat) (st : Stats) :
    mb.foldl accumulate st =
      ⟨st.n + mb.length, st.s1 + mb.sum, st.s2 + (mb.map fun x => x * x).sum⟩ := by
  induction mb generalizing st with
  | nil => simp
  | cons x mb ih =>
    rw [List.foldl_cons, ih]
    simp only [accumulate, List.length_cons, List.sum_cons, List.map_cons]
    congr 1 <;> omega

/-- The accumulators of a buffer (41_threshold.md R231). -/
theorem statsOf_eq (mb : List Nat) : statsOf mb = ⟨mb.length, mb.sum, (mb.map fun x => x * x).sum⟩ := by
  simp [statsOf, foldl_accumulate]

theorem bufferStats_ok {vd : VarDiv} {mb : List Nat} (h : 2 ≤ mb.length) : bufferStats vd mb = .ok (statsOf mb) := by
  have h0 : ¬ mb.length = 0 := by omega
  have h1 : ¬ mb.length = 1 := by omega
  simp only [bufferStats, h0, h1, if_false, and_false]

theorem bufferStats_eq_ok {vd : VarDiv} {mb : List Nat} {st : Stats} (h : bufferStats vd mb = .ok st) :
    st = statsOf mb := by
  unfold bufferStats at h
  split at h
  · cases h
  · split at h
    · cases h
    · injection h with h; exact h.symm

/-! ## Preamble and framer -/

theorem preamble_eq_ok {vd : VarDiv} {mb : List Nat} {st : Stats} {i : Nat} {b : Bool} :
    preamble vd mb st i = .ok b ↔ i + preLen ≤ mb.length ∧ checkStats vd st = .ok () ∧ b = matchBit vd mb st i := by
  unfold preamble
  split
  · simp; intro; omega
  · rw [after_eq_ok]; simp [eq_comm]; omega

theorem ppmFrame_ok {mb : List Nat} {start count : Nat} (h0 : count ≠ 0) (h16 : count % 16 = 0)
    (hf : start + count ≤ mb.length) : ppmFrame mb start count = .ok (walkFrame mb start count) := by
  unfold ppmFrame
  rw [if_neg (by omega), if_neg (by omega)]

theorem setPairBit_length (mb : List Nat) (start k : Nat) (frame : List Byte) :
    (setPairBit mb start frame k).length = frame.length := by
  unfold setPairBit
  split <;> simp

theorem foldl_setPairBit_length (mb : List Nat) (start : Nat) (ks : List Nat) (frame : List Byte) :
    (ks.foldl (setPairBit mb start) frame).length = frame.length := by
  induction ks generalizing frame with
  | nil => rfl
  | cons k ks ih => rw [List.foldl_cons, ih, setPairBit_length]

/-- The output size is count / 16 bytes (43_ppm_framer.md R291). -/
theorem walkFrame_length (mb : List Nat) (start count : Nat) : (walkFrame mb start count).length = count / 16 := by
  simp [walkFrame, foldl_setPairBit_length]

/-! ## Frames -/

/-- The three sizes of a frame agree (00_scope.md R14): 112 bits are 14 bytes, and one bit is two payload samples. -/
theorem frameBits_eq : frameBits = 8 * frameBytes ∧ payLen = 2 * frameBits := by decide

/-- A normalized CPR value lies in [0, 1) (45_bitfield_decoder.md R354). -/
theorem cprFraction_mem (v : BitVec 17) : 0 ≤ cprFraction v ∧ cprFraction v < 1 := by
  have hv : (v.toNat : Rat) < 131072 := by exact_mod_cast v.isLt
  simp only [cprFraction, cprScale, Rat.mkRat_eq_div]
  push_cast
  exact ⟨by positivity, by rw [div_lt_one (by norm_num)]; exact hv⟩

theorem toBytes_length (xs : List Nat) : (toBytes xs).length = xs.length := by simp [toBytes]

theorem crcCheck_ok {frame : List Byte} (h : frame.length = 14) : crcCheck frame = .ok (decide (crcRem frame = 0)) := by
  simp [crcCheck, frameBytes, h]

theorem dfCheck_ok {frame : List Byte} (h : frame.length = 14) :
    dfCheck frame = .ok (decide (bitRange frame 0 5 = dfEs)) := by
  simp [dfCheck, frameBytes, h]

theorem decodeFrame_ok {frame : List Byte} (h : frame.length = 14) : decodeFrame frame = .ok (packetOf frame) := by
  simp [decodeFrame, frameBytes, h]

/-- A 14-byte frame is accepted exactly when its downlink format is 17 and its remainder is 0 (47_pipeline.md R420). -/
theorem acceptFrame_ok {frame : List Byte} (h : frame.length = 14) :
    acceptFrame frame =
      .ok (if bitRange frame 0 5 = dfEs ∧ crcRem frame = 0 then some (packetOf frame) else none) := by
  rw [acceptFrame, dfCheck_ok h, crcCheck_ok h, decodeFrame_ok h]
  by_cases hd : bitRange frame 0 5 = dfEs <;> by_cases hc : crcRem frame = 0
  · rw [decide_eq_true hd, decide_eq_true hc, if_pos ⟨hd, hc⟩]; rfl
  · rw [decide_eq_true hd, decide_eq_false hc, if_neg (fun h => hc h.2)]; rfl
  · rw [decide_eq_false hd, decide_eq_true hc, if_neg (fun h => hd h.1)]; rfl
  · rw [decide_eq_false hd, decide_eq_false hc, if_neg (fun h => hd h.1)]; rfl

/-! ## The scan -/

/-- SCANSTEP in a window that fits, with well-formed statistics, never raises (47_pipeline.md R424). -/
theorem scanStep_ok {vd : VarDiv} {mb : List Nat} {st : Stats} {i : Nat} (hw : i + winLen ≤ mb.length)
    (hs : checkStats vd st = .ok ()) :
    scanStep vd mb st i =
      .ok (if matchBit vd mb st i then
        (true,
          if bitRange (walkFrame mb (i + preLen) payLen) 0 5 = dfEs ∧ crcRem (walkFrame mb (i + preLen) payLen) = 0
          then some (packetOf (walkFrame mb (i + preLen) payLen)) else none)
        else (false, none)) := by
  have hp : preamble vd mb st i = .ok (matchBit vd mb st i) :=
    preamble_eq_ok.2 ⟨by simp [winLen, preLen, payLen] at hw ⊢; omega, hs, rfl⟩
  have hf : ppmFrame mb (i + preLen) payLen = .ok (walkFrame mb (i + preLen) payLen) :=
    ppmFrame_ok (by decide) (by decide) (by simp [winLen, preLen, payLen] at hw ⊢; omega)
  have hl : (walkFrame mb (i + preLen) payLen).length = 14 := by rw [walkFrame_length]; rfl
  simp only [scanStep, if_neg (Nat.not_lt.2 hw), hp, hf, acceptFrame_ok hl, bind, Except.bind, pure, Except.pure]
  cases matchBit vd mb st i <;> rfl

@[simp] theorem scanFrom_zero (vd : VarDiv) (mb : List Nat) (st : Stats) (i : Nat) : scanFrom vd mb st 0 i = .ok [] := rfl

/-- One round of the scan loop (47_pipeline.md R421). -/
theorem scanFrom_succ_of_ok {vd : VarDiv} {mb : List Nat} {st : Stats} {rounds i : Nat} {r : Bool × Option Packet}
    {rest : List Packet} (hr : scanStep vd mb st i = .ok r) (hrest : scanFrom vd mb st rounds (i + 1) = .ok rest) :
    scanFrom vd mb st (rounds + 1) i = .ok (r.2.toList ++ rest) := by
  simp [scanFrom, hr, hrest, bind, Except.bind, pure, Except.pure]

/-- The scan loop never raises while its windows fit and the statistics are well formed (47_pipeline.md R424). -/
theorem scanFrom_isOk {vd : VarDiv} {mb : List Nat} {st : Stats} (hs : checkStats vd st = .ok ()) (rounds i : Nat)
    (hw : rounds = 0 ∨ i + rounds + 239 ≤ mb.length) : ∃ pkts, scanFrom vd mb st rounds i = .ok pkts := by
  induction rounds generalizing i with
  | zero => exact ⟨[], rfl⟩
  | succ n ih =>
    obtain ⟨rest, hrest⟩ := ih (i + 1) (by omega)
    have := scanStep_ok (vd := vd) (mb := mb) (st := st) (i := i) (by simp [winLen, preLen, payLen]; omega) hs
    exact ⟨_, scanFrom_succ_of_ok this hrest⟩

end Sys2Proof.Machine
end

