-- ==== Sys2Proof/Laws/PerInstr.lean ====
section
/-! SUPPORT. Per-instruction lemmas: the port the opcode map gives an operation's command word is the port the operation
is issued on, and its unit is the one the word's unit field names (30_encoding.md R153, R154). -/

namespace Sys2Proof.Laws.PortOfWord

/-- The command word of `i` is assigned, to the port of `i` (30_encoding.md R153), and names a unit (R154). -/
def Statement (i : Instr) : Prop := portOf (encode i).word = some i.port ∧ (unitName (encode i).word).isSome = true

theorem mag (i q : Nat) : Statement (.mag i q) :=
  ⟨rfl, show (unitName 0x01).isSome = true by decide⟩

theorem magblk (blk : List Nat) : Statement (.magblk blk) :=
  ⟨rfl, show (unitName 0x02).isSome = true by decide⟩

theorem stats (mb : List Nat) : Statement (.stats mb) :=
  ⟨rfl, show (unitName 0x08).isSome = true by decide⟩

theorem above (x : Nat) (st : Stats) : Statement (.above x st) :=
  ⟨rfl, show (unitName 0x09).isSome = true by decide⟩

theorem belowhalf (x : Nat) (st : Stats) : Statement (.belowhalf x st) :=
  ⟨rfl, show (unitName 0x0A).isSome = true by decide⟩

theorem preamble (mb : List Nat) (st : Stats) (i : Nat) : Statement (.preamble mb st i) :=
  ⟨rfl, show (unitName 0x10).isSome = true by decide⟩

theorem ppmbit (mb : List Nat) (j : Nat) : Statement (.ppmbit mb j) :=
  ⟨rfl, show (unitName 0x18).isSome = true by decide⟩

theorem ppmframe (mb : List Nat) (first count : Nat) : Statement (.ppmframe mb first count) :=
  ⟨rfl, show (unitName 0x19).isSome = true by decide⟩

theorem crcstep (r b : Nat) : Statement (.crcstep r b) :=
  ⟨rfl, show (unitName 0x20).isSome = true by decide⟩

theorem crcrem (buf : List Nat) : Statement (.crcrem buf) :=
  ⟨rfl, show (unitName 0x21).isSome = true by decide⟩

theorem crccheck (frame : List Nat) : Statement (.crccheck frame) :=
  ⟨rfl, show (unitName 0x22).isSome = true by decide⟩

theorem xbits (buf : List Nat) (lo hi : Nat) : Statement (.xbits buf lo hi) :=
  ⟨rfl, show (unitName 0x28).isSome = true by decide⟩

theorem dfcheck (frame : List Nat) : Statement (.dfcheck frame) :=
  ⟨rfl, show (unitName 0x29).isSome = true by decide⟩

theorem decode (frame : List Nat) : Statement (.decode frame) :=
  ⟨rfl, show (unitName 0x2A).isSome = true by decide⟩

theorem push (e : Entry) : Statement (.push e) :=
  ⟨rfl, show (unitName 0x30).isSome = true by decide⟩

theorem pop : Statement (.pop) :=
  ⟨rfl, show (unitName 0x31).isSome = true by decide⟩

theorem fifostat : Statement (.fifostat) :=
  ⟨rfl, show (unitName 0x32).isSome = true by decide⟩

theorem scanstep (mb : List Nat) (st : Stats) (i : Nat) : Statement (.scanstep mb st i) :=
  ⟨rfl, show (unitName 0x38).isSome = true by decide⟩

theorem scan (mb : List Nat) : Statement (.scan mb) :=
  ⟨rfl, show (unitName 0x39).isSome = true by decide⟩

theorem pPoll : Statement (.pPoll) :=
  ⟨rfl, show (unitName 0x40).isSome = true by decide⟩

theorem pPush : Statement (.pPush) :=
  ⟨rfl, show (unitName 0x41).isSome = true by decide⟩

theorem pEnd : Statement (.pEnd) :=
  ⟨rfl, show (unitName 0x42).isSome = true by decide⟩

theorem cPop : Statement (.cPop) :=
  ⟨rfl, show (unitName 0x48).isSome = true by decide⟩

theorem cScan : Statement (.cScan) :=
  ⟨rfl, show (unitName 0x49).isSome = true by decide⟩

theorem start : Statement (.start) :=
  ⟨rfl, show (unitName 0x50).isSome = true by decide⟩

theorem coJoinP : Statement (.coJoinP) :=
  ⟨rfl, show (unitName 0x51).isSome = true by decide⟩

theorem coJoinC : Statement (.coJoinC) :=
  ⟨rfl, show (unitName 0x52).isSome = true by decide⟩

theorem hSrcOk (blk : List Nat) : Statement (.hSrcOk blk) :=
  ⟨rfl, show (unitName 0x58).isSome = true by decide⟩

theorem hSrcErr : Statement (.hSrcErr) :=
  ⟨rfl, show (unitName 0x59).isSome = true by decide⟩

theorem hCancel : Statement (.hCancel) :=
  ⟨rfl, show (unitName 0x5A).isSome = true by decide⟩

end Sys2Proof.Laws.PortOfWord
end

