-- ==== Sys2Proof/Laws/Step.lean ====
section
/-! SUPPORT. What one step does with the next event (47_pipeline.md R441). -/

namespace Sys2Proof.Machine

theorem step_nil {s : State} (h : s.sched = []) : step s = .next s := by
  simp [step, takeNext, h]

theorem step_cons {s : State} {ev : Event} {rest : List Event} (h : s.sched = ev :: rest) :
    step s = takeEvent ev (s.setSched rest) := by
  simp [step, takeNext, h]

@[simp] theorem takeEvent_host (r : Request) (s : State) : takeEvent (.host r) s = takeHost r s := rfl

@[simp] theorem takeEvent_agent (w : BitVec 8) (s : State) : takeEvent (.agent w) s = takeAgent w s := rfl

@[simp] theorem takeEvent_port (p : FifoPort) (s : State) : takeEvent (.port p) s = fifoPortStep p s := rfl

@[simp] theorem takeEvent_reset (s : State) : takeEvent .reset s = .next s.afterReset := rfl

/-- A transaction whose fields pass the check of their declared types is an operation. -/
theorem decode_of_checkFields {r : Request} (hp : portOf r.word ≠ none)
    (h : checkFields 0 (operandTypes r.word) r.fields = .ok ()) : ∃ i, decode r = .ok i := by
  obtain ⟨w, fs⟩ := r
  simp only at hp h
  unfold portOf at hp
  split at hp
  all_goals first
    | exact absurd rfl hp
    | (have h : checkFields 0 [] fs = .ok () := h
       rw [checkFields_nil] at h
       subst h
       exact ⟨_, rfl⟩)
    | (simp only [operandTypes, checkFields_cons, checkFields_nil, checkField_nat, checkField_u, checkField_seqOf,
        checkField_stats, checkField_entry] at h
       first
        | (obtain ⟨_, _, rfl, ⟨_, rfl, _⟩, rfl⟩ := h; exact ⟨_, rfl⟩)
        | (obtain ⟨_, _, rfl, ⟨_, rfl, _⟩, _, _, rfl, ⟨_, rfl, _⟩, rfl⟩ := h; exact ⟨_, rfl⟩)
        | (obtain ⟨_, _, rfl, ⟨_, rfl, _⟩, _, _, rfl, ⟨_, rfl⟩, _, _, rfl, ⟨_, rfl⟩, rfl⟩ := h; exact ⟨_, rfl⟩))

/-- A transaction of an assigned code that is no operation has an operand outside its declared type. -/
theorem checkFields_error_of_decode_error {r : Request} {e : DecodeError} (hp : portOf r.word ≠ none)
    (h : decode r = .error e) : ∃ f, checkFields 0 (operandTypes r.word) r.fields = .error f := by
  cases hc : checkFields 0 (operandTypes r.word) r.fields with
  | error f => exact ⟨f, rfl⟩
  | ok u =>
    obtain ⟨i, hi⟩ := decode_of_checkFields hp hc
    rw [h] at hi
    cases hi

/-- An operation's operands are within their types exactly when the check of its fields passes. -/
theorem wf_iff_checkFields (i : Instr) : i.wf = true ↔ checkFields 0 (operandTypes i.word) i.fields = .ok () := by
  cases i <;>
    simp [Instr.word, Instr.fields, Instr.wf, operandTypes, checkFields_cons, checkFields_nil, checkField_nat,
      checkField_u, checkField_seqOf, checkField_stats, checkField_entry]

/-- A command-port transaction that is no operation raises. -/
theorem takeMisfit_next {r : Request} {s t : State} (h : takeMisfit r s = .next t) :
    ∃ f, checkFields 0 (operandTypes r.word) r.fields = .error f ∧ t = s.raise r.word f := by
  unfold takeMisfit at h
  split at h
  · injection h with h
    exact ⟨_, by assumption, h.symm⟩
  · cases h

/-- Everything a host's transaction or move can do. -/
theorem takeHost_next {r : Request} {s t : State} (h : takeHost r s = .next t) :
    (s.sys.fault ≠ none ∧ t = s) ∨
    (Live s ∧ t = s.raise r.word (illegalOp r.word)) ∨
    (Live s ∧ ∃ i, decode r = .ok i ∧ exec i s = .next t) ∨
    (Live s ∧ ∃ f, checkFields 0 (operandTypes r.word) r.fields = .error f ∧ t = s.raise r.word f) := by
  rcases whenLive_next h with h | ⟨hl, h⟩
  · exact .inl h
  · split at h
    · injection h with h; exact .inr (.inl ⟨hl, h.symm⟩)
    · injection h with h; exact .inr (.inl ⟨hl, h.symm⟩)
    · exact .inr (.inr (.inl ⟨hl, _, by assumption, h⟩))
    · exact .inr (.inr (.inr ⟨hl, takeMisfit_next h⟩))
    · exact .inr (.inr (.inl ⟨hl, _, by assumption, h⟩))
    · cases h

/-- An agent's event runs the step of its label. -/
theorem takeAgent_next {w : BitVec 8} {s t : State} (h : takeAgent w s = .next t) :
    ∃ i, decode ⟨w, []⟩ = .ok i ∧ portOf w = some .step ∧ exec i s = .next t := by
  unfold takeAgent at h
  split at h
  · exact ⟨_, by assumption, by assumption, h⟩
  · cases h

/-- Everything one step can do: nothing is scheduled, or one event is taken from the schedule. -/
theorem step_next {s t : State} (h : step s = .next t) :
    (s.sched = [] ∧ t = s) ∨ ∃ ev rest, s.sched = ev :: rest ∧ takeEvent ev (s.setSched rest) = .next t := by
  cases hs : s.sched with
  | nil => rw [step_nil hs] at h; injection h with h; exact .inl ⟨rfl, h.symm⟩
  | cons ev rest => rw [step_cons hs] at h; exact .inr ⟨ev, rest, rfl, h⟩

end Sys2Proof.Machine
end

