-- ==== Sys2Proof/Laws/Run.lean ====
section
/-! SUPPORT. What the claims about whole runs lean on: the statistics of a buffer are well formed, `RunInv` reads neither
the fault, the units, the replies nor the schedule, and what a raise and a datapath command leave alone. -/

namespace Sys2Proof.Machine

/-! ## The statistics of a buffer -/

/-- The Cauchy and Schwarz inequality for a buffer: the sum squared is at most the length times the sum of squares. -/
theorem sum_mul_sum_le (mb : List Nat) : mb.sum * mb.sum ≤ mb.length * (mb.map fun x => x * x).sum := by
  induction mb with
  | nil => simp
  | cons x mb ih =>
    simp only [List.sum_cons, List.length_cons, List.map_cons]
    have key : 2 * x * mb.sum ≤ mb.length * (x * x) + (mb.map fun x => x * x).sum := by
      clear ih
      induction mb with
      | nil => simp
      | cons y mb ih =>
        simp only [List.sum_cons, List.length_cons, List.map_cons]
        have : 2 * x * y ≤ x * x + y * y := by zify; nlinarith [sq_nonneg ((x : ℤ) - y)]
        nlinarith
    nlinarith

/-- The statistics of a buffer of at least two samples are well formed for both divisors. -/
theorem checkStats_statsOf {vd : VarDiv} {mb : List Nat} (h : 2 ≤ mb.length) :
    checkStats vd (statsOf mb) = .ok () := by
  have hs := sum_mul_sum_le mb
  rw [statsOf_eq, checkStats, if_neg]
  push Not
  exact ⟨by simp only; omega, fun _ => by simp only; omega, hs⟩

/-- A frame whose first five stream bits read 17 decodes to a packet with downlink format 17. -/
theorem packetOf_downlinkFormat {f : List Byte} (h : bitRange f 0 5 = dfEs) : (packetOf f).downlinkFormat = 17 := by
  simp [packetOf, h, dfEs]

/-! ## What a raise and a command leave alone -/

theorem State.raise_frame (s : State) (op : BitVec 8) (f : Raise) :
    (s.raise op f).cfg = s.cfg ∧ (s.raise op f).pushPort = s.pushPort ∧ (s.raise op f).popPort = s.popPort ∧
    (s.raise op f).sched = s.sched ∧ (s.raise op f).replies = s.replies ∧ (s.raise op f).units = s.units ∧
    (s.raise op f).sys = { s.sys with fault := (s.raise op f).sys.fault } := by
  unfold State.raise
  split <;> exact ⟨rfl, rfl, rfl, rfl, rfl, rfl, rfl⟩

/-- A command-port transaction over the datapath writes no field of `Sys` but `fault` (30_encoding.md R159). -/
theorem command_frame {op : BitVec 8} {s t : State} {r : Except Raise (Result × Units)} (h : command op s r = .next t) :
    t.cfg = s.cfg ∧ t.pushPort = s.pushPort ∧ t.popPort = s.popPort ∧ t.sched = s.sched ∧
    t.sys = { s.sys with fault := t.sys.fault } := by
  rcases command_next h with ⟨_, rfl⟩ | ⟨_, v, u, _, rfl⟩ | ⟨_, f, _, rfl⟩
  · exact ⟨rfl, rfl, rfl, rfl, rfl⟩
  · exact ⟨rfl, rfl, rfl, rfl, rfl⟩
  · obtain ⟨h1, h2, h3, h4, _, _, h7⟩ := s.raise_frame op f
    exact ⟨h1, h2, h3, h4, h7⟩

/-! ## The invariant -/

/-- `RunInv` reads the configuration, `Sys` without its fault, and the producer port's entry, nothing else. -/
theorem RunInv.of_same {s t : State} (h : RunInv s) (hc : t.cfg = s.cfg) (hp : t.pushPort = s.pushPort)
    (hs : t.sys = { s.sys with fault := t.sys.fault }) : RunInv t := by
  obtain ⟨c, y, u, p, q, r, sc⟩ := t
  simp only at hc hp hs
  subst hc hp
  rw [hs]
  exact { h with }

/-- Appending an entry to entries without `End` keeps `End` last. -/
theorem endLast_append {q : List Entry} (h : .endMark ∉ q) (e : Entry) : endLast (q ++ [e]) = true := by
  induction q with
  | nil => cases e <;> rfl
  | cons a q ih =>
    simp only [List.mem_cons, not_or] at h
    cases a with
    | data mb => exact ih h.2
    | endMark => exact absurd rfl h.1

@[simp] theorem endLast_data (mb : List Nat) (q : List Entry) : endLast (.data mb :: q) = endLast q := rfl

@[simp] theorem endLast_endMark (q : List Entry) : endLast (.endMark :: q) = true ↔ q = [] := by simp [endLast]

end Sys2Proof.Machine
end

