-- ==== Sys2Proof/Tests/Slice0.lean ====
section
/-! SUPPORT. Tests: the WellFormed smoke test, one decoding per operation from its word of 30_encoding.md R153, vectors of
95_test_vectors.md, and for every obligation with hypotheses a state and operands that meet them. -/

namespace Sys2Proof.Tests

open Sys2Proof.Machine

/-! ## Helpers -/

/-- A small configuration: K = 2, blocks of four bytes, C = 255, divisor POP. -/
def cfg0 : Params := { k := 2, blockBytes := 4, c := 255, varDiv := .pop, acqExitCode := 1 }

/-- The same under SAMPLE. -/
def cfgS : Params := { k := 2, blockBytes := 4, c := 255, varDiv := .sample, acqExitCode := 1 }

/-- Right after reset, with the small configuration. -/
def s0 : State := { State.reset with cfg := cfg0 }

/-- Right after reset, under SAMPLE. -/
def sS : State := { State.reset with cfg := cfgS }

/-- A started CORE with these agents and this FIFO. -/
def started (co : CoordState) (ps : ProdState) (cs : ConsState) (q : List Entry) : State :=
  ((((s0.setCo co).setPs ps).setCs cs).setFifo q)

/-- A CORE that a fault has halted. -/
def halted : State := s0.setFault (some ⟨4, 0x22, [13]⟩)

/-- The state an outcome holds. -/
def nextOf (o : Out) : Option State :=
  match o with
  | .next t => some t
  | .fault _ => none
  | .refused _ => none

/-- The reason an outcome was refused. -/
def refusalOf (o : Out) : Option Refusal :=
  match o with
  | .refused r => some r
  | .next _ => none
  | .fault _ => none

/-- The result an operation replies with. -/
def resultOf (i : Instr) (s : State) : Option Result := do
  let t ← nextOf (exec i s)
  let r ← t.replies.getLast?
  return r.result

/-- The fault an operation raises. -/
def faultOf (i : Instr) (s : State) : Option FaultRec := do
  let t ← nextOf (exec i s)
  t.sys.fault

/-- `Sys` after an operation. -/
def sysOf (i : Instr) (s : State) : Option Sys := do
  let t ← nextOf (exec i s)
  return t.sys

/-- The worked example frame `ex` of 95_test_vectors.md. -/
def exBytes : List Nat := [0x8D, 0x48, 0x40, 0xD6, 0x20, 0x2C, 0xC3, 0x71, 0xC3, 0x2C, 0xE0, 0x57, 0x60, 0x98]

/-- The packet PEX of `ex` (95_test_vectors.md). -/
def pex : Packet := ⟨17, 5, 0x4840D6, 4, 0x2CC, 0, 0, 0x1B8E1, 0x12CE0⟩

/-- A preamble and the pairs of a frame, HI samples at 2 and LO samples at 0 (the shape of 95_test_vectors.md V-SCAN). -/
def candidateOf (frame : List Nat) : List Nat :=
  [2, 0, 2, 0, 0, 0, 0, 2, 0, 2, 0, 0, 0, 0, 0, 0] ++
    (streamBits (toBytes frame)).flatMap fun b => if b then [2, 0] else [0, 2]


/-! ## WellFormed: each check refuses a value one above its type (30_encoding.md R156) -/

theorem test_wf_refuses_mag_i : (.mag 256 0 : Instr).wf = false := by decide

theorem test_wf_refuses_mag_q : (.mag 255 256 : Instr).wf = false := by decide

theorem test_wf_refuses_magblk : (.magblk [0, 256] : Instr).wf = false := by decide

theorem test_wf_refuses_stats : (.stats [524288] : Instr).wf = false := by decide

theorem test_wf_refuses_above : (.above 524288 ⟨1, 0, 0⟩ : Instr).wf = false := by decide

theorem test_wf_refuses_belowhalf : (.belowhalf 524288 ⟨1, 0, 0⟩ : Instr).wf = false := by decide

theorem test_wf_refuses_preamble : (.preamble [524288] ⟨1, 0, 0⟩ 0 : Instr).wf = false := by decide

theorem test_wf_refuses_ppmbit : (.ppmbit [0, 524288] 0 : Instr).wf = false := by decide

theorem test_wf_refuses_ppmframe : (.ppmframe [524288] 0 16 : Instr).wf = false := by decide

theorem test_wf_refuses_crcstep_r : (.crcstep 16777216 0 : Instr).wf = false := by decide

theorem test_wf_refuses_crcstep_b : (.crcstep 16777215 2 : Instr).wf = false := by decide

theorem test_wf_refuses_crcrem : (.crcrem [256] : Instr).wf = false := by decide

theorem test_wf_refuses_crccheck : (.crccheck [255, 256] : Instr).wf = false := by decide

theorem test_wf_refuses_xbits : (.xbits [256] 0 8 : Instr).wf = false := by decide

theorem test_wf_refuses_dfcheck : (.dfcheck [256] : Instr).wf = false := by decide

theorem test_wf_refuses_decode : (.decode [256] : Instr).wf = false := by decide

theorem test_wf_refuses_push : (.push (.data [524288]) : Instr).wf = false := by decide

theorem test_wf_refuses_scanstep : (.scanstep [524288] ⟨1, 0, 0⟩ 0 : Instr).wf = false := by decide

theorem test_wf_refuses_scan : (.scan [524288] : Instr).wf = false := by decide

theorem test_wf_refuses_hSrcOk : (.hSrcOk [0, 0, 0, 256] : Instr).wf = false := by decide

theorem test_wf_accepts_bounds : (Instr.mag 255 255).wf = true ∧ (Instr.stats [524287]).wf = true ∧
    (Instr.crcstep 16777215 1).wf = true ∧ (Instr.push .endMark).wf = true := by decide

/-! ## Decoding: every row's command word, bit by bit from 30_encoding.md R153 -/

theorem test_decode_mag : decode ⟨0b00000001, [.num 1, .num 2]⟩ = .ok (.mag 1 2) := rfl

theorem test_decode_magblk : decode ⟨0b00000010, [.seq [1, 2]]⟩ = .ok (.magblk [1, 2]) := rfl

theorem test_decode_stats : decode ⟨0b00001000, [.seq [1, 2]]⟩ = .ok (.stats [1, 2]) := rfl

theorem test_decode_above : decode ⟨0b00001001, [.num 9, .stats ⟨1, 2, 3⟩]⟩ = .ok (.above 9 ⟨1, 2, 3⟩) := rfl

theorem test_decode_belowhalf : decode ⟨0b00001010, [.num 9, .stats ⟨1, 2, 3⟩]⟩ = .ok (.belowhalf 9 ⟨1, 2, 3⟩) := rfl

theorem test_decode_preamble :
    decode ⟨0b00010000, [.seq [1], .stats ⟨1, 2, 3⟩, .num 4]⟩ = .ok (.preamble [1] ⟨1, 2, 3⟩ 4) := rfl

theorem test_decode_ppmbit : decode ⟨0b00011000, [.seq [1], .num 4]⟩ = .ok (.ppmbit [1] 4) := rfl

theorem test_decode_ppmframe : decode ⟨0b00011001, [.seq [1], .num 4, .num 16]⟩ = .ok (.ppmframe [1] 4 16) := rfl

theorem test_decode_crcstep : decode ⟨0b00100000, [.num 7, .num 1]⟩ = .ok (.crcstep 7 1) := rfl

theorem test_decode_crcrem : decode ⟨0b00100001, [.seq [1]]⟩ = .ok (.crcrem [1]) := rfl

theorem test_decode_crccheck : decode ⟨0b00100010, [.seq [1]]⟩ = .ok (.crccheck [1]) := rfl

theorem test_decode_xbits : decode ⟨0b00101000, [.seq [1], .num 2, .num 5]⟩ = .ok (.xbits [1] 2 5) := rfl

theorem test_decode_dfcheck : decode ⟨0b00101001, [.seq [1]]⟩ = .ok (.dfcheck [1]) := rfl

theorem test_decode_decode : decode ⟨0b00101010, [.seq [1]]⟩ = .ok (.decode [1]) := rfl

theorem test_decode_push : decode ⟨0b00110000, [.entry (.data [1])]⟩ = .ok (.push (.data [1])) := rfl

theorem test_decode_pop : decode ⟨0b00110001, []⟩ = .ok (.pop) := rfl

theorem test_decode_fifostat : decode ⟨0b00110010, []⟩ = .ok (.fifostat) := rfl

theorem test_decode_scanstep :
    decode ⟨0b00111000, [.seq [1], .stats ⟨1, 2, 3⟩, .num 4]⟩ = .ok (.scanstep [1] ⟨1, 2, 3⟩ 4) := rfl

theorem test_decode_scan : decode ⟨0b00111001, [.seq [1]]⟩ = .ok (.scan [1]) := rfl

theorem test_decode_pPoll : decode ⟨0b01000000, []⟩ = .ok (.pPoll) := rfl

theorem test_decode_pPush : decode ⟨0b01000001, []⟩ = .ok (.pPush) := rfl

theorem test_decode_pEnd : decode ⟨0b01000010, []⟩ = .ok (.pEnd) := rfl

theorem test_decode_cPop : decode ⟨0b01001000, []⟩ = .ok (.cPop) := rfl

theorem test_decode_cScan : decode ⟨0b01001001, []⟩ = .ok (.cScan) := rfl

theorem test_decode_start : decode ⟨0b01010000, []⟩ = .ok (.start) := rfl

theorem test_decode_coJoinP : decode ⟨0b01010001, []⟩ = .ok (.coJoinP) := rfl

theorem test_decode_coJoinC : decode ⟨0b01010010, []⟩ = .ok (.coJoinC) := rfl

theorem test_decode_hSrcOk : decode ⟨0b01011000, [.seq [1]]⟩ = .ok (.hSrcOk [1]) := rfl

theorem test_decode_hSrcErr : decode ⟨0b01011001, []⟩ = .ok (.hSrcErr) := rfl

theorem test_decode_hCancel : decode ⟨0b01011010, []⟩ = .ok (.hCancel) := rfl

theorem test_decode_unassigned : decode ⟨0b00000000, []⟩ = .error .unassigned := rfl

theorem test_decode_missing_field : decode ⟨0b00000001, [.num 1]⟩ = .error .fieldShape := rfl

theorem test_table_word :
    decodeTableWord 8 0b00010000 = some (.preamble [] ⟨0, 0, 0⟩ 0) ∧ decodeTableWord 8 0 = none := by
  decide

/-! ## Vectors of 95_test_vectors.md -/

/-- V-MAG-8 and V-MAG-4. -/
theorem test_mag_hi : resultOf (.mag 255 127) s0 = some (.magnitude 65026) ∧
    resultOf (.mag 127 127) s0 = some (.magnitude 2) := by decide

/-- V-FAULT-14. -/
theorem test_mag_bad_operand : faultOf (.mag 256 0) s0 = some ⟨9, 0x01, [0, 256]⟩ := by decide

/-- V-MAG-16. -/
theorem test_magblk_pairs :
    resultOf (.magblk [0xFF, 0x7F, 0x80, 0x7F]) s0 = some (.buffer [65026, 2]) := by decide

/-- V-FAULT-8. -/
theorem test_magblk_odd : faultOf (.magblk [1, 2, 3]) s0 = some ⟨5, 0x02, [3]⟩ := by decide

/-- V-THR-2. -/
theorem test_stats_sums : resultOf (.stats [1, 2, 3, 4]) s0 = some (.stats ⟨4, 10, 30⟩) := by decide

/-- V-FAULT-11 and V-FAULT-12. -/
theorem test_stats_faults :
    faultOf (.stats []) s0 = some ⟨8, 0x08, [0]⟩ ∧ faultOf (.stats [7]) sS = some ⟨8, 0x08, [1]⟩ := by decide

/-- V-THR-13: 8 is above 7, the threshold 7 is not; V-THR-10: 5 is not above under SAMPLE. -/
theorem test_above_strict : resultOf (.above 8 ⟨10, 10, 100⟩) s0 = some (.bit true) ∧
    resultOf (.above 7 ⟨10, 10, 100⟩) s0 = some (.bit false) ∧ resultOf (.above 5 ⟨4, 4, 16⟩) sS =
      some (.bit false) := by
  decide

/-- V-FAULT-11. -/
theorem test_above_forged : faultOf (.above 1 ⟨1, 5, 20⟩) s0 = some ⟨8, 0x09, [1]⟩ := by decide

/-- V-THR-15 and V-THR-16: 7 against half of the threshold under POP and SAMPLE. -/
theorem test_belowhalf_divisor : resultOf (.belowhalf 7 ⟨10, 20, 400⟩) s0 = some (.bit false) ∧
    resultOf (.belowhalf 7 ⟨10, 20, 400⟩) sS = some (.bit true) := by decide

/-- V-THR-18: nothing is below half of a zero threshold. -/
theorem test_belowhalf_zero : resultOf (.belowhalf 0 ⟨16, 0, 0⟩) s0 = some (.bit false) := by decide

/-- V-PRE-1 and V-PRE-6 on their first 16 samples, with the statistics of the 256-sample buffer. -/
theorem test_preamble_match :
    resultOf (.preamble [100, 0, 100, 0, 0, 0, 0, 100, 0, 100, 0, 0, 0, 0, 0, 0] ⟨256, 400, 40000⟩ 0) s0 =
      some (.bit true) ∧
    resultOf (.preamble [100, 14, 100, 0, 0, 0, 0, 100, 0, 100, 0, 0, 0, 0, 0, 0] ⟨256, 414, 40196⟩ 0) s0 =
      some (.bit false) := by
  decide

/-- V-FAULT-2 and V-FAULT-13. -/
theorem test_preamble_faults : faultOf (.preamble (List.replicate 16 0) ⟨16, 0, 0⟩ 1) s0 = some ⟨1, 0x10, [16, 16]⟩ ∧
    faultOf (.preamble (List.replicate 16 0) ⟨0, 0, 0⟩ 0) s0 = some ⟨8, 0x10, [0]⟩ := by decide

/-- V-PPM-1. -/
theorem test_ppmbit_pairs :
    resultOf (.ppmbit [5, 1] 0) s0 = some (.bit true) ∧ resultOf (.ppmbit [3, 3] 0) s0 = some (.bit false) := by
  decide

/-- V-FAULT-1. -/
theorem test_ppmbit_edge : faultOf (.ppmbit [5] 0) s0 = some ⟨1, 0x18, [1, 1]⟩ := by decide

/-- V-PPM-2. -/
theorem test_ppmframe_byte :
    resultOf (.ppmframe [5, 1, 1, 5, 3, 3, 9, 0, 0, 0, 7, 6, 1, 2, 8, 8] 0 16) s0 = some (.frame [0x94]) := by
  decide

/-- V-PPM-7 and V-PPM-8. -/
theorem test_ppmframe_faults : faultOf (.ppmframe (List.replicate 16 0) 0 24) s0 = some ⟨6, 0x19, [24]⟩ ∧
    faultOf (.ppmframe (List.replicate 16 0) 0 32) s0 = some ⟨1, 0x19, [31, 16]⟩ := by decide

/-- V-CRC-5 and V-CRC-6. -/
theorem test_crcstep_reduces : resultOf (.crcstep 0xFFFFFF 1) s0 = some (.crc 0x000BF6) ∧
    resultOf (.crcstep 0x7FFFFF 1) s0 = some (.crc 0xFFFFFF) := by decide

/-- V-FAULT-15. -/
theorem test_crcstep_bad_bit : faultOf (.crcstep 0 2) s0 = some ⟨9, 0x20, [1, 2]⟩ := by decide

set_option maxRecDepth 20000 in
/-- V-CRC-12 and V-CRC-14. -/
theorem test_crcrem_bytes : resultOf (.crcrem [0xFF, 0xFF, 0xFF, 0xFF]) s0 = some (.crc 0x05FB7F) ∧
    resultOf (.crcrem (exBytes.take 11)) s0 = some (.crc 0xE3E6C3) := by decide

set_option maxRecDepth 20000 in
/-- V-CRC-16. -/
theorem test_crcrem_first_bit :
    resultOf (.crcrem (0x80 :: List.replicate 13 0)) s0 = some (.crc 0x3935EA) := by decide

set_option maxRecDepth 20000 in
/-- Program P1, lines 1 and 6. -/
theorem test_crccheck_valid : resultOf (.crccheck exBytes) s0 = some (.bit true) ∧
    resultOf (.crccheck (exBytes.take 13 ++ [0x99])) s0 = some (.bit false) := by decide

/-- V-FAULT-6. -/
theorem test_crccheck_length : faultOf (.crccheck (exBytes.take 13)) s0 = some ⟨4, 0x22, [13]⟩ := by decide

/-- V-XB-1 and V-XB-3. -/
theorem test_xbits_spans : resultOf (.xbits exBytes 0 32) s0 = some (.value 0x8D4840D6) ∧
    resultOf (.xbits exBytes 7 9) s0 = some (.value 2) := by decide

/-- V-XB-8 and V-XB-9. -/
theorem test_xbits_faults : faultOf (.xbits [0xFF] 0 9) s0 = some ⟨2, 0x28, [9, 8]⟩ ∧
    faultOf (.xbits [0xFF] 4 40) s0 = some ⟨3, 0x28, [4, 40]⟩ := by decide

/-- V-DEC-3 and V-DEC-4. -/
theorem test_dfcheck_gate : resultOf (.dfcheck (0x88 :: List.replicate 13 0)) s0 = some (.bit true) ∧
    resultOf (.dfcheck (0x90 :: List.replicate 13 0)) s0 = some (.bit false) := by decide

/-- V-FAULT-7. -/
theorem test_dfcheck_length : faultOf (.dfcheck (List.replicate 11 0)) s0 = some ⟨4, 0x29, [11]⟩ := by decide

/-- V-DEC-1. -/
theorem test_decode_example : resultOf (.decode exBytes) s0 = some (.packet pex) := by decide

/-- V-DEC-9. -/
theorem test_decode_length : faultOf (.decode (List.replicate 15 0)) s0 = some ⟨4, 0x2A, [15]⟩ := by decide

/-- V-FIFO-3. -/
theorem test_push_waits_when_full :
    (nextOf (exec (.push (.data [3])) (s0.setFifo [.data [1], .data [2]]))).map (fun t => (t.sys.fifo, t.pushPort)) =
    some ([.data [1], .data [2]], some (.data [3])) := by decide

/-- V-FAULT-16. -/
theorem test_push_busy :
    faultOf (.push .endMark) (started .waitP .poll .pop []) = some ⟨10, 0x30, [0x30]⟩ := by decide

/-- V-FIFO-4, the POP. -/
theorem test_pop_oldest :
    resultOf .pop (s0.setFifo [.data [1], .data [2]]) = some (.entry (.data [1])) := by decide

/-- V-FIFO-4, the pending PUSH after it. -/
theorem test_waiting_push_completes :
    (nextOf (fifoPortStep .producer ((s0.setFifo [.data [2]]).setPushPort (some (.data [3]))))).map (fun t => t.sys.fifo) =
    some [.data [2], .data [3]] := by decide

/-- V-FIFO-3 and V-FIFO-1. -/
theorem test_fifostat_counts : resultOf .fifostat (s0.setFifo [.data [1], .data [2]]) = some (.occupancy 2 true false) ∧
    resultOf .fifostat s0 = some (.occupancy 0 false true) := by decide

/-- Program P1, line 8: not accepted once the CORE is faulted. -/
theorem test_fifostat_halted : nextOf (exec .fifostat halted) = some halted := by decide

set_option maxRecDepth 20000 in
/-- 47_pipeline.md R420 on a candidate that carries `ex`, with the threshold 1 of the statistics {1, 1, 1}. -/
theorem test_scanstep_accepts :
    resultOf (.scanstep (candidateOf exBytes) ⟨1, 1, 1⟩ 0) s0 = some (.candidate true (some pex)) := by decide

set_option maxRecDepth 20000 in
/-- The same with the last bit flipped: the CRC fails (47_pipeline.md R420). -/
theorem test_scanstep_rejects :
    resultOf (.scanstep (candidateOf (exBytes.take 13 ++ [0x99])) ⟨1, 1, 1⟩ 0) s0 = some (.candidate true none) := by
  decide

set_option maxRecDepth 20000 in
/-- V-SCAN-3, shortened to 241 samples. -/
theorem test_scan_noise : resultOf (.scan (List.replicate 241 2)) s0 = some (.packets []) := by decide

set_option maxRecDepth 20000 in
/-- 47_pipeline.md R421: a buffer shorter than the window is skipped. -/
theorem test_scan_short : resultOf (.scan (List.replicate 239 2)) s0 = some (.packets []) := by decide

/-- V-PIPE-2 and V-PIPE-3. -/
theorem test_pPoll : (sysOf .pPoll (started .waitP .poll .pop [])).map (·.ps) = some .read ∧
    (sysOf .pPoll ((started .waitP .poll .pop []).setCancel true)).map (·.ps) = some .stop := by decide

/-- V-PIPE-6. -/
theorem test_pPush_blocked : nextOf (exec .pPush (started .waitP (.push (.data [9, 9])) .pop [.data [1], .data [2]])) =
    some (started .waitP (.push (.data [9, 9])) .pop [.data [1], .data [2]]) := by decide

/-- 47_pipeline.md R434. -/
theorem test_pPush :
    sysOf .pPush (started .waitP (.push (.data [9, 9])) .pop []) =
      some (started .waitP .poll .pop [.data [9, 9]]).sys := by
  decide

/-- V-PIPE-7. -/
theorem test_pEnd :
    sysOf .pEnd (started .waitP .stop .pop []) = some (started .waitP .done .pop [.endMark]).sys := by decide

/-- V-PIPE-8 and V-PIPE-9. -/
theorem test_cPop : sysOf .cPop (started .waitP .poll .pop [.data [1, 2]]) = some (started .waitP .poll .pop []).sys ∧
    (sysOf .cPop (started .waitP .done .pop [.endMark])).map (·.cs) = some .done := by decide

set_option maxRecDepth 20000 in
/-- V-PIPE-10 and V-PIPE-11, in a buffer of 241 samples. -/
theorem test_cScan :
    (sysOf .cScan (started .waitP .poll (.scan (List.replicate 241 2) ⟨241, 482, 964⟩ 1) [])).map (·.cs) =
    some (.scan (List.replicate 241 2) ⟨241, 482, 964⟩ 2) ∧
    (sysOf .cScan (started .waitP .poll (.scan (List.replicate 241 2) ⟨241, 482, 964⟩ 2) [])).map (·.cs) =
      some .pop := by
  decide

set_option maxRecDepth 20000 in
/-- 47_pipeline.md R437 with the candidate of `test_scanstep_accepts`. -/
theorem test_cScan_emits :
    (sysOf .cScan (started .waitP .poll (.scan (candidateOf exBytes) ⟨1, 1, 1⟩ 0) [])).map (·.out) = some [pex] := by
  decide

/-- V-PIPE-1. -/
theorem test_start : sysOf .start s0 = some (started .waitP .poll .pop []).sys := by decide

/-- V-PIPE-16. -/
theorem test_start_busy : faultOf .start (s0.setFifo [.endMark]) = some ⟨10, 0x50, [0x50]⟩ := by decide

/-- V-PIPE-12, and program P2, line 12. -/
theorem test_coJoinP : nextOf (exec .coJoinP (started .waitP .read .pop [])) = some (started .waitP .read .pop []) ∧
    (sysOf .coJoinP (started .waitP .done .done [])).map (·.co) = some .waitC := by decide

/-- V-PIPE-13 and V-PIPE-14. -/
theorem test_coJoinC :
    (sysOf .coJoinC (started .waitC .done .done [])).map (fun y => (y.status, y.co)) = some (some .ok, .exited) ∧
    (sysOf .coJoinC ((started .waitC .done .done []).setAcqErr true)).map (fun y => (y.status, y.co)) =
      some (some .acqError, .exited) := by
  decide

/-- V-PIPE-4. -/
theorem test_hSrcOk :
    (sysOf (.hSrcOk [0xFF, 0x7F, 0x80, 0x7F]) (started .waitP .read .pop [])).map (·.ps) =
      some (.push (.data [65026, 2])) := by
  decide

/-- 47_pipeline.md R450: another block length, and an answer to no read. -/
theorem test_hSrcOk_refused : refusalOf (exec (.hSrcOk [1, 2]) (started .waitP .read .pop [])) = some .hostBlockLength ∧
    refusalOf (exec (.hSrcOk [1, 2, 3, 4]) s0) = some .hostAnswerUnasked := by decide

/-- V-PIPE-5. -/
theorem test_hSrcErr :
    (sysOf .hSrcErr (started .waitP .read .pop [])).map (fun y => (y.ps, y.acqErr)) = some (.stop, true) := by
  decide

/-- V-PIPE-15. -/
theorem test_hCancel : nextOf (exec .hCancel (s0.setCancel true)) = some (s0.setCancel true) := by decide

/-- V-FAULT-10. -/
theorem test_illegal_codes : (nextOf (takeHost ⟨0x00, []⟩ s0)).map (·.sys.fault) = some (some ⟨7, 0x00, [0]⟩) ∧
    (nextOf (takeHost ⟨0x40, []⟩ s0)).map (·.sys.fault) = some (some ⟨7, 0x40, [0x40]⟩) := by decide

/-- Program P1, line 4: F_ICAO of `ex`. -/
theorem test_pseudo_icao : resultOf (expandPseudo (.fIcao exBytes)) s0 = some (.value 0x4840D6) := by decide

/-- 30_encoding.md R156 and 60_exceptions.md R475: a number where a byte sequence belongs, and the first of two elements
out of range. -/
theorem test_bad_operand_first :
    (nextOf (takeHost ⟨0x21, [.num 5]⟩ s0)).map (·.sys.fault) = some (some ⟨9, 0x21, [0, 5]⟩) ∧
    faultOf (.crcrem [0, 300, 400]) s0 = some ⟨9, 0x21, [0, 300]⟩ ∧
    (nextOf (takeHost ⟨0x31, [.num 7]⟩ s0)).map (·.sys.fault) = some (some ⟨9, 0x31, [0, 7]⟩) := by decide

/-- A name is bound to the result of its own line, and a line without a result binds nothing (log 26). -/
theorem test_bindReply :
    bindReply [] ⟨some "v", "MAG", []⟩ s0 (s0.addReply 0x01 (.magnitude 2)) = [("v", .magnitude 2)] ∧
    bindReply [] ⟨some "v", "POP", []⟩ (s0.addReply 0x01 (.magnitude 2)) (s0.addReply 0x01 (.magnitude 2)) = [] := by
  decide

/-- 30_encoding.md R160 and R161: F_DF 5 is XBITS 5, 0, 5, which raises BAD_OPERAND [0, 5]; P_POLL alone is a step, and
P_POLL 5 and START 5 are no lines (log 28). -/
theorem test_lines :
    (runLines [] s0 [⟨none, "F_DF", [.num 5]⟩]).map (·.sys.fault) = some (some ⟨9, 0x28, [0, 5]⟩) ∧
    lineEvent [] ⟨none, "P_POLL", []⟩ = some (.agent 0x40) ∧ lineEvent [] ⟨none, "P_POLL", [.num 5]⟩ = none ∧
    lineEvent [] ⟨none, "START", [.num 5]⟩ = none := by decide

/-- V-FIFO-4 as program lines: the blocked PUSH completes after the POP that enables it (log 29). -/
theorem test_blocked_push_line :
    (runLines [("c", .buffer [3])] (s0.setFifo [.data [1], .data [2]])
      [⟨none, "PUSH", [.dataOf "c"]⟩, ⟨some "x", "POP", []⟩]).map (fun t => (t.sys.fifo, t.pushPort)) =
    some ([.data [2], .data [3]], none) := by decide

/-! ## States of a run -/

theorem runInv_started (ps : ProdState) (q : List Entry)
    (hps : ps = .poll ∨ ps = .read ∨ ps = .stop ∨ ps = .push (.data [1, 2]))
    (hq : q = [] ∨ q = [.data [3, 4]] ∨ q = [.data [3, 4], .data [5, 6]]) : RunInv (started .waitP ps .pop q) := by
  rcases hps with rfl | rfl | rfl | rfl <;> rcases hq with rfl | rfl | rfl <;>
    constructor <;> simp [started, s0, State.reset, Sys.reset, cfg0, endLast, Entry.wf, seqBelow]

theorem runInv_scanning (mb : List Nat) (st : Stats) (i : Nat)
    (h : winLen ≤ mb.length ∧ bufferStats .pop mb = .ok st ∧ i + 239 ≤ mb.length) (ht : seqBelow 19 mb = true) :
    RunInv (started .waitP .poll (.scan mb st i) []) := by
  constructor
  case scanning =>
    intro mb' st' i' hc
    injection hc with h1 h2 h3
    subst h1 h2 h3
    exact h
  case scan_typed =>
    intro mb' st' i' hc
    injection hc with h1 h2 h3
    subst h1
    exact ht
  all_goals simp [started, s0, State.reset, Sys.reset, cfg0, endLast]

theorem runInv_joining (cs : ConsState) (co : CoordState) (q : List Entry)
    (h : (cs = .pop ∧ co = .waitP ∧ q = [.endMark]) ∨ (cs = .done ∧ q = [] ∧ (co = .waitP ∨ co = .waitC))) :
    RunInv (started co .done cs q) := by
  rcases h with ⟨rfl, rfl, rfl⟩ | ⟨rfl, rfl, rfl | rfl⟩ <;>
    constructor <;> simp [started, s0, State.reset, Sys.reset, cfg0, endLast, Entry.wf]

theorem runInv_exited : RunInv ((started .exited .done .done []).setStatus (some .ok)) := by
  constructor <;> simp [started, s0, State.reset, Sys.reset, cfg0, endLast]

/-! ## Witnesses: for every obligation with hypotheses, a state and operands that meet them, clause by clause -/

theorem witness_StepRunsDecodedInstr :
    (decode ⟨0x01, [.num 255, .num 127]⟩ = .ok (.mag 255 127) ∧ (Instr.mag 255 127).port ≠ .step ∧
      (s0.setSched [.host ⟨0x01, [.num 255, .num 127]⟩]).sched = .host ⟨0x01, [.num 255, .num 127]⟩ :: []) ∧
    (decode ⟨0x40, []⟩ = .ok .pPoll ∧ Instr.pPoll.port = .step ∧ (s0.setSched [.agent 0x40]).sched =
      .agent 0x40 :: []) ∧
    (s0.setSched [.port .consumer]).sched = .port .consumer :: [] ∧ (s0.setSched [.reset]).sched = .reset :: [] ∧
    s0.sched = [] := ⟨⟨rfl, by decide, rfl⟩, ⟨rfl, rfl, rfl⟩, rfl, rfl, rfl⟩

theorem witness_IllegalCodeRaises :
    0b10 ≤ groupOf 0x80 ∧ Live s0 ∧ portOf 0x00 = none ∧ portOf 0xFF = none ∧ portOf 0x52 = some .step := by decide

theorem witness_BadOperandRaises :
    (Live s0 ∧ (Instr.mag 256 0).port = .cmd ∧ (Instr.mag 256 0).wf = false ∧ (Instr.crcstep 0 2).wf = false ∧
      (Instr.push (.data [0, 524288])).wf = false) ∧
    (portOf 0x21 = some .cmd ∧ decode ⟨0x21, [.num 5]⟩ = .error .fieldShape ∧
      decode ⟨0x01, [.num 255]⟩ = .error .fieldShape ∧ decode ⟨0x31, [.num 0]⟩ = .error .fieldShape) ∧
    (Instr.magblk [255]).wf = true ∧
    ∃ t f, exec (.magblk [255]) s0 = .next t ∧ t.sys.fault = some f :=
  ⟨by decide, ⟨rfl, rfl, rfl, rfl⟩, by decide, _, ⟨5, 0x02, [1]⟩, rfl, rfl⟩

theorem witness_MagGivesSquaredPower : Live s0 ∧ 255 < 256 ∧ 256 ≤ 256 := by decide

theorem witness_MagnitudeFitsNineteenBits : 0 < 256 ∧ 255 < 256 := by decide

theorem witness_MagblkMapsPairs :
    Live s0 ∧ (∀ b ∈ [0, 255], b < 256) ∧ [0, 255].length % 2 = 0 ∧ (∀ b ∈ [255], b < 256) ∧ [255].length % 2 = 1 := by
  decide

theorem witness_StatsAreSums :
    (Live s0 ∧ (∀ x ∈ [524287], x < 2 ^ 19) ∧ [524287] ≠ [] ∧ s0.cfg.varDiv = .pop) ∧
    (Live sS ∧ (∀ x ∈ [0, 524287], x < 2 ^ 19) ∧ 2 ≤ [0, 524287].length ∧ [524287].length = 1 ∧
      sS.cfg.varDiv = .sample) := by decide

theorem witness_DiscriminantIsNatural :
    ∃ (st : Stats) (μ v σ T : ℝ), bufferStats .sample [0, 2] = .ok st ∧ μ = (st.s1 : ℝ) / st.n ∧
      v = (statsD st : ℝ) / ((st.n : ℝ) * (st.n - 1)) ∧ σ = Real.sqrt v ∧ T = μ + 2 * σ :=
  ⟨_, _, _, _, _, rfl, rfl, rfl, rfl, rfl⟩

/-- For ABOVE and BELOWHALF alike: the first clause under POP, the second for one element under SAMPLE, for no element and
for a forged record. -/
theorem witness_RealComparison :
    (∃ (x : Nat) (st : Stats) (μ v σ T : ℝ), Live s0 ∧ x < 2 ^ 19 ∧ μ = (st.s1 : ℝ) / st.n ∧
      v = ((st.n : ℝ) * st.s2 - (st.s1 : ℝ) * st.s1) / ((st.n : ℝ) * st.n) ∧ σ = Real.sqrt v ∧ T = μ + 2 * σ ∧
      st.n ≠ 0 ∧ (s0.cfg.varDiv = .sample → st.n ≠ 1) ∧ st.s1 * st.s1 ≤ st.n * st.s2) ∧
    (∃ (x : Nat) (st : Stats) (μ v σ T : ℝ), Live sS ∧ x < 2 ^ 19 ∧ μ = (st.s1 : ℝ) / st.n ∧
      v = ((st.n : ℝ) * st.s2 - (st.s1 : ℝ) * st.s1) / ((st.n : ℝ) * (st.n - 1)) ∧ σ = Real.sqrt v ∧ T = μ + 2 * σ ∧
      sS.cfg.varDiv = .sample ∧ st.n = 1) ∧
    (⟨0, 0, 0⟩ : Stats).n = 0 ∧ (⟨1, 5, 20⟩ : Stats).n * 20 < 5 * 5 :=
  ⟨⟨524287, ⟨10, 10, 100⟩, _, _, _, _, rfl, by decide, rfl, rfl, rfl, rfl, by decide, by decide, by decide⟩,
    ⟨0, ⟨1, 7, 49⟩, _, _, _, _, rfl, by decide, rfl, rfl, rfl, rfl, rfl, rfl⟩, rfl, by decide⟩

theorem witness_AboveAndBelowHalfDisjoint :
    checkStats .pop ⟨1, 0, 0⟩ = .ok () ∧ checkStats .sample ⟨2, 2, 4⟩ = .ok () := ⟨rfl, rfl⟩

theorem witness_PreambleTestsSevenSamples :
    (Live s0 ∧ (∀ x ∈ List.replicate 16 524287, x < 2 ^ 19) ∧ 0 + 16 ≤ (List.replicate 16 524287).length ∧
      (List.replicate 15 524287).length < 0 + 16) ∧
    checkStats s0.cfg.varDiv ⟨1, 0, 0⟩ = .ok () ∧ checkStats s0.cfg.varDiv ⟨0, 0, 0⟩ ≠ .ok () :=
  ⟨by decide, rfl, by decide⟩

theorem witness_MatchIgnoresGuardSamples :
    (List.replicate 16 0).length = ((List.replicate 16 0).set 5 9).length ∧
    ∀ d, d ∈ [0, 1, 2, 3, 7, 8, 9] →
      (List.replicate 16 0).getD (0 + d) 0 = ((List.replicate 16 0).set 5 9).getD (0 + d) 0 := by decide

theorem witness_NoAdjacentMatches :
    matchBit .pop [100, 0, 100, 0, 0, 0, 0, 100, 0, 100] ⟨256, 400, 40000⟩ 0 = true ∧
    matchBit .pop [0, 100, 0, 100, 0, 0, 0, 0, 100, 0, 100] ⟨256, 400, 40000⟩ (0 + 1) = true ∧
    checkStats .pop ⟨256, 400, 40000⟩ = .ok () := by decide

theorem witness_PpmbitComparesPair :
    Live s0 ∧ (∀ x ∈ [5, 524287], x < 2 ^ 19) ∧ 0 + 1 < [5, 524287].length ∧ [5, 524287].length ≤ 1 + 1 := by decide

theorem witness_PpmframePlacesPairBits :
    Live s0 ∧ (∀ x ∈ List.replicate 16 524287, x < 2 ^ 19) ∧ 16 ≠ 0 ∧ 16 % 16 = 0 ∧
    0 + 16 ≤ (List.replicate 16 524287).length ∧ 24 % 16 ≠ 0 ∧ (List.replicate 16 524287).length < 1 + 16 := by decide

theorem witness_PpmRoundTrip :
    List.replicate 8 true ≠ [] ∧ (List.replicate 8 true).length % 8 = 0 ∧
    0 + 2 * (List.replicate 8 true).length ≤ [1, 0, 1, 0, 1, 0, 1, 0, 1, 0, 1, 0, 1, 0, 1, 0].length ∧
    ∀ k, k < (List.replicate 8 true).length →
      ((List.replicate 8 true).getD k false = true →
        [1, 0, 1, 0, 1, 0, 1, 0, 1, 0, 1, 0, 1, 0, 1, 0].getD (0 + 2 * k + 1) 0 <
          [1, 0, 1, 0, 1, 0, 1, 0, 1, 0, 1, 0, 1, 0, 1, 0].getD (0 + 2 * k) 0) ∧
      ((List.replicate 8 true).getD k false = false →
        [1, 0, 1, 0, 1, 0, 1, 0, 1, 0, 1, 0, 1, 0, 1, 0].getD (0 + 2 * k) 0 ≤
          [1, 0, 1, 0, 1, 0, 1, 0, 1, 0, 1, 0, 1, 0, 1, 0].getD (0 + 2 * k + 1) 0) := by decide

theorem witness_CrcstepShiftsAndReduces : Live s0 ∧ 16777215 < 2 ^ 24 ∧ 1 < 2 ∧ 2 ^ 24 ≤ 16777216 ∧ 2 ≤ 2 := by decide

theorem witness_CrcremStepsEveryBit : Live s0 ∧ ∀ b ∈ [0, 255], b < 256 := by decide

/-- For CRCCHECK, DFCHECK and DECODE alike. -/
theorem witness_FrameOperations :
    Live s0 ∧ (∀ b ∈ exBytes, b < 256) ∧ exBytes.length = 14 ∧ (∀ b ∈ exBytes.take 13, b < 256) ∧
    (exBytes.take 13).length ≠ 14 := by decide

set_option maxRecDepth 20000 in
theorem witness_CrcIsLinear :
    ([0x01#8, 0x02#8].length = [0x80#8, 0xFF#8].length) ∧
    (toBytes exBytes).length = 14 ∧ crcRem (toBytes exBytes) = 0 ∧ 0 < 112 ∧ 111 < 112 := by decide

theorem witness_ParityIsRemainderOfPaddedData : (toBytes (exBytes.take 11)).length = 11 := by decide

theorem witness_NonzeroStartRejectsWorkedExample : (0x800000 : Word24) ≠ 0 := by decide

theorem witness_XbitsReadsStreamBits :
    Live s0 ∧ (∀ b ∈ [255, 0, 0, 255], b < 256) ∧ 0 < 32 ∧ 32 - 0 ≤ 32 ∧ 32 ≤ 8 * [255, 0, 0, 255].length ∧
    32 < 33 - 0 ∧ 5 ≤ 5 ∧ 1 < 33 ∧ 33 - 1 ≤ 32 ∧ 8 * [255, 0, 0, 255].length < 33 := by decide

theorem witness_IcaoAddressIsBigEndian : (toBytes exBytes).length = 14 := by decide

theorem witness_PushAppendsOrWaits :
    (Live s0 ∧ (Entry.data [524287]).wf = true ∧ s0.sys.co = .idle ∧ s0.pushPort = none) ∧
    (s0.setFifo [.endMark]).sys.fifo.length < s0.cfg.k ∧ s0.cfg.k ≤ (s0.setFifo [.endMark, .endMark]).sys.fifo.length ∧
    (s0.setPushPort (some .endMark)).pushPort ≠ none ∧ (started .exited .done .done []).sys.co ≠ .idle := by decide

theorem witness_PopRemovesOldestOrWaits :
    (Live s0 ∧ s0.sys.co = .idle ∧ s0.popPort = false ∧ s0.sys.fifo = []) ∧
    (s0.setFifo [.endMark]).sys.fifo = .endMark :: [] ∧ (s0.setPopPort true).popPort = true ∧
    (started .exited .done .done []).sys.co ≠ .idle := by decide

theorem witness_WaitingTransactionCompletes :
    ((s0.setPushPort (some .endMark)).sys.co = .idle ∧ (s0.setPushPort (some .endMark)).pushPort = some .endMark ∧
      (s0.setFifo [.endMark]).sys.fifo.length < s0.cfg.k) ∧
    ((s0.setPopPort true).popPort = true ∧ (s0.setFifo [.endMark]).sys.fifo = .endMark :: []) ∧
    ((started .waitP .poll .pop []).sys.co ≠ .idle ∧ s0.pushPort = none ∧ s0.popPort = false ∧
      s0.cfg.k ≤ (s0.setFifo [.endMark, .endMark]).sys.fifo.length ∧ s0.sys.fifo = []) ∧
    (s0.setSched [.port .producer]).sched = .port .producer :: [] ∧
    (s0.setSched [.port .consumer]).sched = .port .consumer :: [] := by decide

theorem witness_FifostatReadsOccupancy : Live s0 ∧ Live (started .waitC .done .done []) := by decide

theorem witness_FifoIsStrict :
    ∃ t, step ((s0.setFifo [.endMark]).setSched [.host ⟨0x30, [.entry .endMark]⟩]) = .next t ∧
      ((s0.setFifo [.endMark]).setSched [.host ⟨0x30, [.entry .endMark]⟩]).sched.head? ≠ some .reset ∧
      t.sys.fifo = [.endMark, .endMark] := ⟨_, rfl, by decide, rfl⟩

set_option maxRecDepth 20000 in
theorem witness_ScanstepAcceptsValidFrames :
    (Live s0 ∧ (∀ x ∈ candidateOf exBytes, x < 2 ^ 19) ∧ 0 + 240 ≤ (candidateOf exBytes).length ∧
      (candidateOf exBytes).length < 1 + 240) ∧
    checkStats s0.cfg.varDiv ⟨1, 1, 1⟩ = .ok () ∧ checkStats s0.cfg.varDiv ⟨0, 0, 0⟩ ≠ .ok () ∧
    matchBit s0.cfg.varDiv (candidateOf exBytes) ⟨1, 1, 1⟩ 0 = true ∧
    matchBit s0.cfg.varDiv (candidateOf exBytes) ⟨1, 2, 4⟩ 0 = false := by decide

set_option maxRecDepth 20000 in
theorem witness_ScanTestsEveryOffset : Live s0 ∧ (∀ x ∈ List.replicate 240 2, x < 2 ^ 19) := by decide

theorem witness_StartStartsBothSides :
    Live s0 ∧ s0.sys.co = .idle ∧ s0.sys.fifo = [] ∧ (s0.setFifo [.endMark]).sys.fifo ≠ [] := by decide

theorem witness_PPollReadsCancellation :
    Live (started .waitP .poll .pop []) ∧ (started .waitP .poll .pop []).sys.ps = .poll ∧
    (started .waitP .poll .pop []).sys.cancel = false ∧
    ((started .waitP .poll .pop []).setCancel true).sys.cancel = true := by decide

/-- For H_SRC_OK and H_SRC_ERR alike. -/
theorem witness_SourceAnswers :
    Live (started .waitP .read .pop []) ∧ (started .waitP .read .pop []).sys.ps = .read ∧
    [0, 255, 255, 0].length = (started .waitP .read .pop []).cfg.blockBytes ∧ (∀ b ∈ [0, 255, 255, 0], b < 256) := by
  decide

theorem witness_PPushAppendsHeldEntry :
    (started .waitP (.push .endMark) .pop []).sys.ps = .push .endMark ∧ Live (started .waitP (.push .endMark) .pop []) ∧
    (s0.setFifo [.data [3, 4]]).sys.fifo.length < s0.cfg.k ∧
    s0.cfg.k ≤ (s0.setFifo [.data [3, 4], .data [5, 6]]).sys.fifo.length := by decide

theorem witness_PEndAppendsEnd :
    Live (started .waitP .stop .pop [.data [3, 4]]) ∧ (started .waitP .stop .pop [.data [3, 4]]).sys.ps = .stop ∧
    (started .waitP .stop .pop [.data [3, 4]]).sys.fifo.length < cfg0.k ∧
    cfg0.k ≤ (started .waitP .stop .pop [.data [3, 4], .data [5, 6]]).sys.fifo.length := by decide

set_option maxRecDepth 20000 in
theorem witness_CPopTakesOldestEntry :
    Live (started .waitP .poll .pop []) ∧ (started .waitP .poll .pop []).sys.cs = .pop ∧
    (started .waitP .poll .pop []).sys.fifo = [] ∧ (started .waitP .done .pop [.endMark]).sys.fifo = .endMark :: [] ∧
    (List.replicate 239 0).length < 240 ∧ 240 ≤ (List.replicate 240 0).length := by decide

set_option maxRecDepth 20000 in
theorem witness_CScanTestsOneCandidate :
    (started .waitP .poll (.scan (List.replicate 241 2) ⟨241, 482, 964⟩ 1) []).sys.cs =
      .scan (List.replicate 241 2) ⟨241, 482, 964⟩ 1 ∧
    1 + 240 ≤ (List.replicate 241 2).length ∧ checkStats cfg0.varDiv ⟨241, 482, 964⟩ = .ok () ∧
    (List.replicate 241 2).length < 2 + 240 := by decide

theorem witness_CoJoinPSeesProducerDone :
    Live (started .waitP .done .pop [.endMark]) ∧ (started .waitP .done .pop [.endMark]).sys.co = .waitP ∧
    (started .waitP .done .pop [.endMark]).sys.ps = .done ∧ RunInv (started .waitP .done .pop [.endMark]) :=
  ⟨rfl, rfl, rfl, runInv_joining _ _ _ (.inl ⟨rfl, rfl, rfl⟩)⟩

theorem witness_CoJoinCWritesStatus :
    Live (started .waitC .done .done []) ∧ (started .waitC .done .done []).sys.co = .waitC ∧
    (started .waitC .done .done []).sys.cs = .done ∧ (started .waitC .done .done []).sys.acqErr = false ∧
    ((started .waitC .done .done []).setAcqErr true).sys.acqErr = true := by decide

theorem witness_HCancelRaisesCancellation : Live s0 ∧ (s0.setCancel true).sys.cancel = true := by decide

theorem witness_DisabledAgentStepWaits :
    Instr.pPush ∈ agentSteps ∧
    ¬ agentEnabled .pPush (started .waitP (.push (.data [1, 2])) .pop [.data [3, 4], .data [5, 6]]) := by
  refine ⟨by decide, ?_⟩
  simp [agentEnabled, started, s0, cfg0]

theorem witness_FaultedCoreStandsStill :
    halted.sys.fault ≠ none ∧ (halted.setSched [.host ⟨0x32, []⟩]).sys.fault ≠ none ∧
    (halted.setSched [.host ⟨0x32, []⟩]).sched.head? ≠ some .reset ∧
    ∃ t, step (halted.setSched [.host ⟨0x32, []⟩]) = .next t := ⟨by decide, by decide, by decide, _, rfl⟩

theorem witness_RaiseIsPrecise :
    ∃ t, Live s0 ∧ exec (.magblk [255]) s0 = .next t ∧ t.sys.fault ≠ none := ⟨_, rfl, rfl, by decide⟩

theorem witness_CommandsLeaveThePipeline :
    (Instr.magblk [255]).port = .cmd ∧ Instr.magblk [255] ≠ .pop ∧ Instr.magblk [255] ≠ .fifostat ∧
    (∀ e, Instr.magblk [255] ≠ .push e) ∧ Live s0 ∧ Live (started .waitP .poll .pop []) ∧
    s0.cfg = (started .waitP .poll .pop []).cfg ∧ s0.replies = (started .waitP .poll .pop []).replies ∧
    ∃ t t', exec (.magblk [255]) s0 = .next t ∧ exec (.magblk [255]) (started .waitP .poll .pop []) = .next t' :=
  ⟨rfl, by decide, by decide, (fun _ h => nomatch h), rfl, rfl, rfl, rfl, _, _, rfl, rfl⟩

theorem witness_StepKeepsRunInv :
    ∃ t, RunInv ((started .waitP (.push (.data [1, 2])) .pop [.data [3, 4]]).setSched [.agent 0x41]) ∧
      step ((started .waitP (.push (.data [1, 2])) .pop [.data [3, 4]]).setSched [.agent 0x41]) = .next t ∧
      t.sys.fifo = [.data [3, 4], .data [1, 2]] :=
  ⟨_, (runInv_started (.push (.data [1, 2])) [.data [3, 4]] (by simp) (by simp)).of_same rfl rfl rfl, rfl, rfl⟩

theorem witness_OwedPacketsAreConserved :
    (∃ t, RunInv (started .waitP .read .pop []) ∧ Live (started .waitP .read .pop []) ∧
      (started .waitP .read .pop []).sys.co ≠ .idle ∧
      exec (.hSrcOk [0, 255, 255, 0]) (started .waitP .read .pop []) = .next t ∧ Live t) ∧
    RunInv ((started .exited .done .done []).setStatus (some .ok)) ∧
    ((started .exited .done .done []).setStatus (some .ok)).sys.co = .exited :=
  ⟨⟨_, runInv_started _ _ (by simp) (by simp), rfl, by decide, rfl, rfl⟩, runInv_exited, rfl⟩

/-- The schedule of program P2 of 95_test_vectors.md, from H_CANCEL on. -/
def cancelledRun : List Event :=
  [.host ⟨0x5A, []⟩, .host ⟨0x50, []⟩, .agent 0x40, .agent 0x42, .agent 0x48, .agent 0x51, .agent 0x52]

theorem witness_OutputIsScanOfDeliveredBlocks :
    .reset ∉ cancelledRun ∧
    ∃ t, Sys2Proof.core.run 7 { State.reset with cfg := cfg0, sched := cancelledRun } = .next t ∧ Final t :=
  ⟨by decide, _, rfl, rfl, rfl⟩

theorem witness_PipelineNeverFaults :
    (RunInv (started .waitP .read .pop []) ∧ Live (started .waitP .read .pop []) ∧ Instr.pPoll ∈ agentSteps ∧
      (∀ b ∈ [0, 255, 255, 0], b < 256)) ∧
    (∃ t, exec .pPoll (started .waitP .read .pop []) = .next t) ∧
    (∃ t, exec .hCancel (started .waitP .read .pop []) = .next t) ∧
    (∃ t, exec .hSrcErr (started .waitP .read .pop []) = .next t) ∧
    (∃ t, exec (.hSrcOk [0, 255, 255, 0]) (started .waitP .read .pop []) = .next t) :=
  ⟨⟨runInv_started _ _ (by simp) (by simp), rfl, by decide, by decide⟩, ⟨_, rfl⟩, ⟨_, rfl⟩, ⟨_, rfl⟩, ⟨_, rfl⟩⟩

theorem witness_DrainTerminates :
    (RunInv ((started .waitP .stop .pop [.data [3, 4]]).setCancel true) ∧
      ((started .waitP .stop .pop [.data [3, 4]]).setCancel true).sys.cancel = true ∧
      agentEnabled .pEnd ((started .waitP .stop .pop [.data [3, 4]]).setCancel true) ∧
      agentEnabled .cPop ((started .waitP .stop .pop [.data [3, 4]]).setCancel true)) ∧
    (RunInv ((started .waitP .read .pop []).setCancel true) ∧
      (∃ t, exec .hSrcErr ((started .waitP .read .pop []).setCancel true) = .next t ∧ Live t) ∧
      (∃ t, exec (.hSrcOk [0, 255, 255, 0]) ((started .waitP .read .pop []).setCancel true) = .next t ∧ Live t)) ∧
    (RunInv (((started .waitP .read .pop []).setCancel true).setSched [.host ⟨0x59, []⟩]) ∧
      ((started .waitP .read .pop []).setCancel true).sys.co ≠ .idle ∧
      ∃ t, step (((started .waitP .read .pop []).setCancel true).setSched [.host ⟨0x59, []⟩]) = .next t) :=
  have hs := runInv_started .stop [.data [3, 4]] (by simp) (by simp)
  have hr : RunInv ((started .waitP .read .pop []).setCancel true) :=
    { runInv_started .read [] (by simp) (by simp) with }
  ⟨⟨{ hs with }, rfl, ⟨rfl, rfl, by decide⟩, ⟨rfl, rfl, by decide⟩⟩, ⟨hr, ⟨_, rfl, rfl⟩, ⟨_, rfl, rfl⟩⟩,
    hr.of_same rfl rfl rfl, by decide, _, rfl⟩

theorem witness_StuckOnlyOnSilentSource :
    RunInv (started .waitP .read .pop []) ∧ (started .waitP .read .pop []).sys.co ≠ .idle :=
  ⟨runInv_started _ _ (by simp) (by simp), by decide⟩

theorem witness_NoReadAfterCancellation :
    (∃ t, ((started .waitP .poll .pop []).setCancel true).sys.cancel = true ∧
      step (((started .waitP .poll .pop []).setCancel true).setSched [.agent 0x40]) = .next t ∧ t.sys.ps = .stop) ∧
    RunInv (started .waitP (.push (.data [1, 2])) .pop [.data [3, 4], .data [5, 6]]) :=
  ⟨⟨_, rfl, rfl, rfl⟩, runInv_started _ _ (by simp) (by simp)⟩

set_option maxRecDepth 20000 in
theorem witness_runInv_scanning : RunInv (started .waitP .poll (.scan (List.replicate 241 2) ⟨241, 482, 964⟩ 1) []) :=
  runInv_scanning _ _ _ (by decide) (by decide)

end Sys2Proof.Tests
end

section
/-! The width of a magnitude (00_scope.md R15): both terms of its sum of squares lie in `-510..510`, because the
configuration's `C` is at most 510 (70_reset_and_hazards.md R524). -/

namespace Sys2Proof.Machine

theorem params_c_le (cfg : Params) : cfg.c ≤ 510 := by
  have hok := cfg.ok
  simp only [paramsOk, Bool.and_eq_true, decide_eq_true_eq] at hok
  obtain ⟨⟨_, hc⟩, _⟩ := hok
  exact hc

/-- The sum of squares is never negative, so reading it as a natural number loses nothing. -/
theorem magnitude_cast (c i q : Nat) :
    (magnitude c i q : Int) = (2 * (i : Int) - c) ^ 2 + (2 * (q : Int) - c) ^ 2 := by
  rw [magnitude, ← pow_two, ← pow_two]
  exact Int.toNat_of_nonneg (by positivity)

theorem magnitude_comm (c i q : Nat) : magnitude c i q = magnitude c q i := by
  rw [← Int.natCast_inj, magnitude_cast, magnitude_cast, add_comm]

/-- A byte taken twice lies in `0..510`, as `C` does, so the two are at most 510 apart. -/
theorem abs_centred_byte_le {c v : Nat} (hc : c ≤ 510) (hv : v < 256) : |2 * (v : Int) - c| ≤ 510 := by
  rw [abs_le]
  omega

theorem sq_centred_byte_le {c v : Nat} (hc : c ≤ 510) (hv : v < 256) : (2 * (v : Int) - c) ^ 2 ≤ 510 ^ 2 := by
  obtain ⟨hlo, hhi⟩ := abs_le.1 (abs_centred_byte_le hc hv)
  exact sq_le_sq' hlo hhi

theorem magnitude_le {c i q : Nat} (hc : c ≤ 510) (hi : i < 256) (hq : q < 256) : magnitude c i q ≤ 520200 := by
  have hdi := sq_centred_byte_le hc hi
  have hdq := sq_centred_byte_le hc hq
  have hm := magnitude_cast c i q
  omega

/-- Settles O7: each term is bounded by 510, so the magnitude by `2 * 510 ^ 2`. -/
theorem magnitudeFitsNineteenBits : Obligations.MagnitudeFitsNineteenBits := by
  unfold Obligations.MagnitudeFitsNineteenBits
  refine ⟨rfl, fun cfg i q hi hq => ?_⟩
  have hc := params_c_le cfg
  have hm := magnitude_le hc hi hq
  exact ⟨abs_centred_byte_le hc hi, hm, by omega, magnitude_comm cfg.c i q⟩

end Sys2Proof.Machine
end

section
/-! The assigned codes and the raise of ILLEGAL_OP (30_encoding.md R153, R155): a code is assigned to a port exactly when
an operation issued on that port has it, so what holds of every code is read off the operations. -/

namespace Sys2Proof

theorem portOf_word (i : Instr) : portOf i.word = some i.port := by
  cases i <;> rfl

/-- Every assigned code is the code of an operation on its port: the one its transaction with fields of zeros decodes
to. -/
theorem decode_zeroFields_of_portOf {w : BitVec 8} {p : Port} (h : portOf w = some p) :
    ∃ i, decode ⟨w, zeroFields w⟩ = .ok i ∧ i.word = w ∧ i.port = p := by
  unfold portOf at h
  split at h <;> cases h
  all_goals exact ⟨_, rfl, rfl, rfl⟩

theorem portOf_eq_some_iff {w : BitVec 8} {p : Port} : portOf w = some p ↔ ∃ i : Instr, i.word = w ∧ i.port = p := by
  constructor
  · intro h
    obtain ⟨i, _, hw, hp⟩ := decode_zeroFields_of_portOf h
    exact ⟨i, hw, hp⟩
  · rintro ⟨i, rfl, rfl⟩
    exact portOf_word i

/-- The unassigned codes are those of no operation (30_encoding.md R155). -/
theorem portOf_eq_none_iff {w : BitVec 8} : portOf w = none ↔ ∀ i : Instr, i.word ≠ w := by
  rw [Option.eq_none_iff_forall_ne_some]
  constructor
  · intro h i hi
    exact h i.port (portOf_eq_some_iff.2 ⟨i, hi, rfl⟩)
  · intro h p hp
    obtain ⟨i, hi, _⟩ := portOf_eq_some_iff.1 hp
    exact h i hi

/-- The thirty codes of the opcode map (30_encoding.md R153). -/
def assignedCodes : List (BitVec 8) :=
  [0x01, 0x02, 0x08, 0x09, 0x0A, 0x10, 0x18, 0x19, 0x20, 0x21, 0x22, 0x28, 0x29, 0x2A, 0x30, 0x31, 0x32, 0x38, 0x39,
    0x40, 0x41, 0x42, 0x48, 0x49, 0x50, 0x51, 0x52, 0x58, 0x59, 0x5A]

theorem word_mem_assignedCodes (i : Instr) : i.word ∈ assignedCodes := by
  cases i <;> simp only [Instr.word] <;> decide

theorem portOf_isSome_iff {w : BitVec 8} : (portOf w).isSome ↔ w ∈ assignedCodes := by
  constructor
  · intro h
    obtain ⟨p, hp⟩ := Option.isSome_iff_exists.1 h
    obtain ⟨i, rfl, _⟩ := portOf_eq_some_iff.1 hp
    exact word_mem_assignedCodes i
  · have hsome : ∀ c ∈ assignedCodes, (portOf c).isSome := by decide
    exact hsome w

theorem portOf_eq_none_of_group {w : BitVec 8} (h : w = 0x00 ∨ 0b10 ≤ groupOf w) : portOf w = none := by
  have hlow : ∀ c ∈ assignedCodes, ¬ (c = 0x00 ∨ 0b10 ≤ groupOf c) := by decide
  rw [← Option.not_isSome_iff_eq_none, portOf_isSome_iff]
  exact fun hw => hlow w hw h

theorem filter_assigned_perm :
    ((List.range 256).filter fun n => (portOf (BitVec.ofNat 8 n)).isSome).Perm (assignedCodes.map BitVec.toNat) := by
  refine (List.perm_ext_iff_of_nodup (List.nodup_range.filter _) (by decide)).2 fun n => ?_
  rw [List.mem_filter, List.mem_range, portOf_isSome_iff, List.mem_map]
  constructor
  · rintro ⟨hn, hw⟩
    exact ⟨_, hw, Nat.mod_eq_of_lt hn⟩
  · rintro ⟨w, hw, rfl⟩
    rw [BitVec.ofNat_toNat, BitVec.setWidth_eq]
    exact ⟨w.isLt, hw⟩

/-- The opcode map assigns 30 of the 256 codes and leaves the others. -/
theorem count_unassigned : ((List.range 256).countP fun n => (portOf (BitVec.ofNat 8 n)).isNone) = 226 := by
  have hassigned : ((List.range 256).countP fun n => (portOf (BitVec.ofNat 8 n)).isSome) = 30 := by
    rw [List.countP_eq_length_filter, filter_assigned_perm.length_eq]
    rfl
  have hsplit := List.length_eq_countP_add_countP (fun n => (portOf (BitVec.ofNat 8 n)).isSome) (l := List.range 256)
  simp only [Bool.not_eq_true, Option.isSome_eq_false_iff, Bool.decide_eq_true, List.length_range] at hsplit
  omega

/-- The codes of the agents' steps, as 30_encoding.md R155 lists them. -/
def stepCodes : List (BitVec 8) := [0x40, 0x41, 0x42, 0x48, 0x49, 0x51, 0x52]

theorem word_mem_stepCodes {i : Instr} (h : i.port = .step) : i.word ∈ stepCodes := by
  cases i <;> cases h
  all_goals decide

theorem portOf_eq_step_iff {w : BitVec 8} : portOf w = some .step ↔ w ∈ stepCodes := by
  constructor
  · intro h
    obtain ⟨i, rfl, hp⟩ := portOf_eq_some_iff.1 h
    exact word_mem_stepCodes hp
  · have hstep : ∀ c ∈ stepCodes, portOf c = some .step := by decide
    exact hstep w

namespace Machine

/-- The fields are not looked at (60_exceptions.md R479): whatever `decode` answers, the raise is the same. -/
theorem takeHost_illegalOp {s : State} {r : Request} (hl : Live s)
    (hr : portOf r.word = none ∨ portOf r.word = some .step) :
    takeHost r s = .next (s.raise r.word (illegalOp r.word)) := by
  rw [takeHost, whenLive_of_live hl]
  rcases hr with hr | hr <;> rw [hr]

end Machine

open Machine

/-- Settles O4: the assigned codes are those of the operations, and the raise comes before any look at the fields. -/
theorem illegalCodeRaises : Obligations.IllegalCodeRaises := by
  unfold Obligations.IllegalCodeRaises
  refine ⟨fun _ => portOf_eq_none_iff, count_unassigned, fun _ => portOf_eq_none_of_group,
    fun _ => portOf_eq_step_iff, fun s r hl hr => ?_⟩
  rw [takeHost_illegalOp hl hr, State.raise_of_live hl]
  rfl

end Sys2Proof
end

section
/-! The discriminant `D` of a buffer (41_threshold.md R230, R232). A sample put before a buffer adds the squares of its
distances from the buffer's samples to `D`, so `D` is the sum of the squared differences of all pairs of samples: never
negative, and 0 exactly when the samples are pairwise equal. -/

namespace Sys2Proof.Machine

/-- The sum of the squared distances from `x` to the samples of a buffer. -/
def sqDistSum (x : Nat) (mb : List Nat) : Int := (mb.map fun y => ((x : Int) - y) ^ 2).sum

@[simp] theorem sqDistSum_nil (x : Nat) : sqDistSum x [] = 0 := rfl

@[simp] theorem sqDistSum_cons (x y : Nat) (mb : List Nat) :
    sqDistSum x (y :: mb) = ((x : Int) - y) ^ 2 + sqDistSum x mb := rfl

theorem sqDistSum_nonneg (x : Nat) (mb : List Nat) : 0 ≤ sqDistSum x mb := by
  induction mb with
  | nil => exact le_rfl
  | cons y mb ih =>
    rw [sqDistSum_cons]
    positivity

theorem sqDistSum_eq_zero_iff (x : Nat) (mb : List Nat) : sqDistSum x mb = 0 ↔ ∀ y ∈ mb, x = y := by
  induction mb with
  | nil => simp
  | cons y mb ih =>
    rw [sqDistSum_cons, add_eq_zero_iff_of_nonneg (sq_nonneg _) (sqDistSum_nonneg x mb), ih, sq_eq_zero_iff,
      sub_eq_zero, Nat.cast_inj, List.forall_mem_cons]

/-- The squares multiplied out, in the accumulators of the buffer. -/
theorem sqDistSum_eq_sums (x : Nat) (mb : List Nat) :
    sqDistSum x mb = (mb.length : Int) * x ^ 2 - 2 * x * mb.sum + (mb.map fun y => y * y).sum := by
  induction mb with
  | nil => simp
  | cons y mb ih =>
    rw [sqDistSum_cons, ih]
    simp only [List.length_cons, List.sum_cons, List.map_cons]
    push_cast
    ring

@[simp] theorem statsD_statsOf_nil : statsD (statsOf []) = 0 := rfl

theorem statsD_statsOf_cons (x : Nat) (mb : List Nat) :
    statsD (statsOf (x :: mb)) = sqDistSum x mb + statsD (statsOf mb) := by
  rw [sqDistSum_eq_sums]
  simp only [statsD, statsOf_eq, List.length_cons, List.sum_cons, List.map_cons]
  push_cast
  ring

theorem statsD_statsOf_nonneg (mb : List Nat) : 0 ≤ statsD (statsOf mb) := by
  induction mb with
  | nil => exact le_rfl
  | cons x mb ih =>
    rw [statsD_statsOf_cons]
    exact add_nonneg (sqDistSum_nonneg x mb) ih

theorem statsD_statsOf_eq_zero_iff_pairwise (mb : List Nat) : statsD (statsOf mb) = 0 ↔ mb.Pairwise (· = ·) := by
  induction mb with
  | nil => simp
  | cons x mb ih =>
    rw [statsD_statsOf_cons, add_eq_zero_iff_of_nonneg (sqDistSum_nonneg x mb) (statsD_statsOf_nonneg mb), ih,
      sqDistSum_eq_zero_iff, List.pairwise_cons]

theorem statsD_statsOf_eq_zero_iff (mb : List Nat) : statsD (statsOf mb) = 0 ↔ ∀ x ∈ mb, ∀ y ∈ mb, x = y := by
  rw [statsD_statsOf_eq_zero_iff_pairwise]
  exact ⟨fun hp _ hx _ hy => hp.forall_of_forall (fun _ _ => rfl) hx hy, List.pairwise_of_forall_mem_list⟩

/-! ## The real threshold -/

/-- What `D` is divided by to give the variance `v` (41_threshold.md R230). -/
def varianceDivisor (vd : VarDiv) (n : ℝ) : ℝ :=
  match vd with
  | .pop => n * n
  | .sample => n * (n - 1)

theorem varianceDivisor_pos {vd : VarDiv} {n : Nat} (h0 : 0 < n) (h1 : vd = .sample → 1 < n) :
    0 < varianceDivisor vd n := by
  have hn : (0 : ℝ) < n := Nat.cast_pos.2 h0
  cases vd with
  | pop => exact mul_pos hn hn
  | sample => exact mul_pos hn (sub_pos.2 (Nat.one_lt_cast.2 (h1 rfl)))

/-- A buffer has statistics only when it is long enough for the divisor (41_threshold.md R231). -/
theorem length_of_bufferStats_ok {vd : VarDiv} {mb : List Nat} {st : Stats} (h : bufferStats vd mb = .ok st) :
    0 < mb.length ∧ (vd = .sample → 1 < mb.length) := by
  unfold bufferStats at h
  split at h
  · cases h
  · split at h
    · cases h
    · next hne hone =>
      refine ⟨Nat.pos_of_ne_zero hne, fun hvd => ?_⟩
      have hlen : mb.length ≠ 1 := fun hl => hone ⟨hvd, hl⟩
      omega

theorem varianceDivisor_pos_of_bufferStats_ok {vd : VarDiv} {mb : List Nat} {st : Stats}
    (h : bufferStats vd mb = .ok st) : 0 < varianceDivisor vd st.n := by
  obtain ⟨h0, h1⟩ := length_of_bufferStats_ok h
  rw [bufferStats_eq_ok h, statsOf_eq]
  exact varianceDivisor_pos h0 h1

/-- The standard deviation is 0 exactly when the discriminant is: the divisor is positive. -/
theorem sqrt_div_eq_zero_iff {D : Int} {d : ℝ} (hD : 0 ≤ D) (hd : 0 < d) : Real.sqrt (D / d) = 0 ↔ D = 0 := by
  have hv : 0 ≤ (D : ℝ) / d := div_nonneg (Int.cast_nonneg hD) hd.le
  rw [Real.sqrt_eq_zero hv, div_eq_zero_iff, or_iff_left hd.ne', Int.cast_eq_zero]

/-- Settles O10: `D` is the sum of the squared differences of the buffer's pairs, and the divisor of a buffer with
statistics is positive. -/
theorem discriminantIsNatural : Obligations.DiscriminantIsNatural := by
  unfold Obligations.DiscriminantIsNatural
  rintro vd mb st μ v σ T hst rfl hv rfl rfl
  change v = (statsD st : ℝ) / varianceDivisor vd st.n at hv
  have hdiv := varianceDivisor_pos_of_bufferStats_ok hst
  obtain rfl := bufferStats_eq_ok hst
  have hD := statsD_statsOf_nonneg mb
  have hconst := statsD_statsOf_eq_zero_iff mb
  have hσ : Real.sqrt v = 0 ↔ statsD (statsOf mb) = 0 := by rw [hv, sqrt_div_eq_zero_iff hD hdiv]
  exact ⟨hD, hconst, Real.sqrt_nonneg v, hσ.trans hconst, le_add_of_nonneg_right (by positivity), by positivity⟩

end Sys2Proof.Machine
end

section
/-! Why no two adjacent offsets match (42_preamble.md R263): the sample between them would be above the threshold and
below half of it, and the distance from half the threshold is never the smaller one (41_threshold.md R237). -/

namespace Sys2Proof.Machine

/-! ## The two comparisons, in one form for both divisors -/

/-- What the squared distance is multiplied by in the integer forms (41_threshold.md R236). -/
def distanceWeight (vd : VarDiv) (st : Stats) : Int :=
  match vd with
  | .pop => 1
  | .sample => (st.n : Int) - 1

/-- What the weighted squared distance is compared with (41_threshold.md R236). -/
def spreadBound (vd : VarDiv) (st : Stats) : Int :=
  match vd with
  | .pop => threshK2 * statsD st
  | .sample => threshK2 * st.n * statsD st

theorem aboveBit_eq_true_iff {vd : VarDiv} {x : Nat} {st : Stats} :
    aboveBit vd x st = true ↔ 0 < (st.n : Int) * x - st.s1 ∧
      spreadBound vd st < distanceWeight vd st * ((st.n : Int) * x - st.s1) ^ 2 := by
  cases vd <;> simp only [aboveBit, spreadBound, distanceWeight, Bool.and_eq_true, decide_eq_true_iff, one_mul, pow_two]

theorem belowHalfBit_eq_true_iff {vd : VarDiv} {x : Nat} {st : Stats} :
    belowHalfBit vd x st = true ↔ 2 * (st.n : Int) * x - st.s1 < 0 ∨
      distanceWeight vd st * (2 * (st.n : Int) * x - st.s1) ^ 2 < spreadBound vd st := by
  cases vd <;> simp only [belowHalfBit, spreadBound, distanceWeight, Bool.or_eq_true, decide_eq_true_iff, one_mul,
    pow_two] <;> rfl

theorem distanceWeight_nonneg {vd : VarDiv} {st : Stats} (hn : st.n ≠ 0) : 0 ≤ distanceWeight vd st := by
  cases vd with
  | pop => exact zero_le_one
  | sample => exact sub_nonneg.2 (by exact_mod_cast Nat.one_le_iff_ne_zero.2 hn)

/-- A sample above the threshold of some statistics is never below half of it, even when they are ill formed: with
`N = 0` no sample is above, and otherwise the second distance is at least the first. -/
theorem belowHalfBit_eq_false_of_aboveBit {vd : VarDiv} {x : Nat} {st : Stats} (ha : aboveBit vd x st = true) :
    belowHalfBit vd x st = false := by
  rw [← Bool.not_eq_true, belowHalfBit_eq_true_iff, not_or, not_lt, not_lt]
  obtain ⟨hpos, hbound⟩ := aboveBit_eq_true_iff.1 ha
  have hn : st.n ≠ 0 := by
    intro h0
    rw [h0, Nat.cast_zero, zero_mul] at hpos
    omega
  have hnx : 0 ≤ (st.n : Int) * x := by positivity
  have hle : (st.n : Int) * x - st.s1 ≤ 2 * (st.n : Int) * x - st.s1 := by linarith
  exact ⟨hpos.le.trans hle, hbound.le.trans
    (mul_le_mul_of_nonneg_left (pow_le_pow_left₀ hpos.le hle 2) (distanceWeight_nonneg hn))⟩

/-! ## The match bit -/

theorem matchBit_eq_true_iff {vd : VarDiv} {mb : List Nat} {st : Stats} {i : Nat} :
    matchBit vd mb st i = true ↔ (∀ d ∈ highOffs, aboveBit vd (rd mb (i + d)) st = true) ∧
      ∀ d ∈ lowOffs, belowHalfBit vd (rd mb (i + d)) st = true := by
  rw [matchBit, Bool.and_eq_true, List.all_eq_true, List.all_eq_true]

theorem aboveBit_of_matchBit {vd : VarDiv} {mb : List Nat} {st : Stats} {i : Nat} (h : matchBit vd mb st i = true) :
    aboveBit vd (mb.getD i 0) st = true :=
  (matchBit_eq_true_iff.1 h).1 0 (by decide)

theorem belowHalfBit_succ_of_matchBit {vd : VarDiv} {mb : List Nat} {st : Stats} {i : Nat}
    (h : matchBit vd mb st i = true) : belowHalfBit vd (mb.getD (i + 1) 0) st = true :=
  (matchBit_eq_true_iff.1 h).2 1 (by decide)

theorem matchBit_succ_eq_false_of_matchBit {vd : VarDiv} {mb : List Nat} {st : Stats} {i : Nat}
    (h : matchBit vd mb st i = true) : matchBit vd mb st (i + 1) = false := by
  rw [← Bool.not_eq_true]
  intro hnext
  have hlow := belowHalfBit_succ_of_matchBit h
  rw [belowHalfBit_eq_false_of_aboveBit (aboveBit_of_matchBit hnext)] at hlow
  exact Bool.false_ne_true hlow

/-- Two preambles interleaved, at offsets 0 and 2: six pulses in 31 samples, few enough that a pulse exceeds the
threshold. -/
def interleavedPreambles : List Nat := [1, 0, 1, 0, 1, 0, 0, 1, 0, 1, 0, 1] ++ List.replicate 19 0

theorem interleavedPreambles_match :
    bufferStats .pop interleavedPreambles = .ok ⟨31, 6, 6⟩ ∧
    matchBit .pop interleavedPreambles ⟨31, 6, 6⟩ 0 = true ∧
    matchBit .pop interleavedPreambles ⟨31, 6, 6⟩ 2 = true := ⟨rfl, by decide, by decide⟩

/-- Settles O16: the sample between two adjacent matches would be both above and below half; `interleavedPreambles`
matches at 0 and at 2. -/
theorem noAdjacentMatches : Obligations.NoAdjacentMatches := by
  unfold Obligations.NoAdjacentMatches
  refine ⟨fun _ _ _ _ => ⟨belowHalfBit_succ_of_matchBit, aboveBit_of_matchBit⟩, fun _ _ _ _ _ h => ?_, ?_⟩
  · obtain ⟨hfirst, hnext⟩ := h
    rw [matchBit_succ_eq_false_of_matchBit hfirst] at hnext
    exact Bool.false_ne_true hnext
  · obtain ⟨hstats, hmatch, hmatch2⟩ := interleavedPreambles_match
    exact ⟨_, _, _, 0, hstats, by decide, hmatch, hmatch2⟩

end Sys2Proof.Machine
end

section
/-! The round trip of the framer (43_ppm_framer.md R292, R293). One round of the walk changes one stream bit of the frame,
so after the walk stream bit `k` is the bit of pair `k`. -/

namespace Sys2Proof.Machine

/-! ## Stream bits under the walk -/

theorem getLsbD_one_shiftLeft {w i j : Nat} (hi : i < w) : ((1#w) <<< i).getLsbD j = decide (j = i) := by
  rw [← BitVec.twoPow_eq, BitVec.getLsbD_twoPow, decide_eq_true hi, Bool.true_and]
  exact decide_eq_decide.2 eq_comm

theorem streamBit_replicate_zero (n k : Nat) : streamBit (List.replicate n 0) k = false := by
  have hbyte : (List.replicate n (0 : Byte)).getD (k / 8) 0 = 0 := by
    rw [List.getD_eq_getElem?_getD, List.getElem?_replicate]
    split <;> rfl
  rw [streamBit, hbyte]
  exact BitVec.getLsbD_zero

/-- Stream bit `k` is value bit `7 − (k mod 8)` of byte `k div 8`, so setting that value bit touches no other. -/
theorem streamBit_modify_or {f : List Byte} {k : Nat} (hk : k < 8 * f.length) (j : Nat) :
    streamBit (f.modify (k / 8) fun b => b ||| ((1#8) <<< (7 - k % 8))) j = (streamBit f j || decide (j = k)) := by
  rw [streamBit, streamBit, List.getD_eq_getElem?_getD, List.getD_eq_getElem?_getD]
  by_cases hbyte : k / 8 = j / 8
  · have hlt : j / 8 < f.length := by omega
    have hval : 7 - j % 8 = 7 - k % 8 ↔ j = k := by omega
    rw [hbyte, List.getElem?_modify_eq, List.getElem?_eq_getElem hlt, Option.map_eq_map, Option.map_some,
      Option.getD_some, Option.getD_some, BitVec.getLsbD_or, getLsbD_one_shiftLeft (by omega), decide_eq_decide.2 hval]
  · have hne : j ≠ k := fun h => hbyte (h ▸ rfl)
    rw [List.getElem?_modify_ne _ _ hbyte, decide_eq_false hne, Bool.or_false]

theorem streamBit_setPairBit {mb : List Nat} {start k : Nat} {f : List Byte} (hk : k < 8 * f.length) (j : Nat) :
    streamBit (setPairBit mb start f k) j = (streamBit f j || (decide (j = k) && pairBit mb (start + 2 * k))) := by
  unfold setPairBit
  split
  · next hp => rw [streamBit_modify_or hk, hp, Bool.and_true]
  · next hp => rw [Bool.eq_false_of_not_eq_true hp, Bool.and_false, Bool.or_false]

theorem streamBit_foldl_setPairBit {mb : List Nat} {start : Nat} {ks : List Nat} {f : List Byte}
    (hks : ∀ k ∈ ks, k < 8 * f.length) (j : Nat) :
    streamBit (ks.foldl (setPairBit mb start) f) j =
      (streamBit f j || (decide (j ∈ ks) && pairBit mb (start + 2 * j))) := by
  induction ks generalizing f with
  | nil => simp
  | cons k ks ih =>
    obtain ⟨hk, hrest⟩ := List.forall_mem_cons.1 hks
    rw [List.foldl_cons, ih (by simpa only [setPairBit_length] using hrest), streamBit_setPairBit hk]
    by_cases hjk : j = k
    · subst hjk
      cases pairBit mb (start + 2 * j) <;> simp
    · simp [hjk]

/-- The stream bits of a walk's frame are the pairs' bits, in the order of the walk (43_ppm_framer.md R292). -/
theorem streamBits_walkFrame (mb : List Nat) (start : Nat) {count : Nat} (h16 : count % 16 = 0) :
    streamBits (walkFrame mb start count) = (List.range (count / 2)).map fun k => pairBit mb (start + 2 * k) := by
  have hbits : 8 * (count / 16) = count / 2 := by omega
  rw [streamBits, walkFrame_length, hbits]
  refine List.map_congr_left fun k hk => ?_
  rw [walkFrame, streamBit_foldl_setPairBit, streamBit_replicate_zero, Bool.false_or, decide_eq_true hk, Bool.true_and]
  intro i hi
  rw [List.length_replicate, hbits]
  exact List.mem_range.1 hi

/-! ## Samples built from a pattern -/

theorem pairBit_eq_of_pattern {mb : List Nat} {j : Nat} {b : Bool}
    (htrue : b = true → mb.getD (j + 1) 0 < mb.getD j 0) (hfalse : b = false → mb.getD j 0 ≤ mb.getD (j + 1) 0) :
    pairBit mb j = b := by
  cases b with
  | true => exact decide_eq_true (htrue rfl)
  | false => exact decide_eq_false (hfalse rfl).not_gt

/-- Settles O19: the stream bits of the frame are the pairs' bits, and each pair was built to give its bit. -/
theorem ppmRoundTrip : Obligations.PpmRoundTrip := by
  unfold Obligations.PpmRoundTrip
  intro bits mb start hne h8 hfit hpat
  have hpos : 0 < bits.length := List.length_pos_iff.2 hne
  have h16 : 2 * bits.length % 16 = 0 := by omega
  refine ⟨_, ppmFrame_ok (by omega) h16 hfit, ?_⟩
  rw [streamBits_walkFrame mb start h16, Nat.mul_div_cancel_left _ two_pos]
  refine List.ext_getElem (by simp) fun k _ hk => ?_
  obtain ⟨htrue, hfalse⟩ := hpat k hk
  rw [List.getElem_map, List.getElem_range, pairBit_eq_of_pattern htrue hfalse, List.getD_eq_getElem _ _ hk]

end Sys2Proof.Machine
end

section
/-! The CRC register as a linear machine over GF(2) (44_crc24.md R320, R321, R324, R326): what one step does to each
bit, from it the linearity of the remainder, that a zero bit never clears a nonzero register, and that 24 bits after
zeros only fill the register. -/

namespace Sys2Proof.Machine

/-! ## One step -/

/-- Each bit after a step: the bit shifted into its place, flipped where `CRC_POLY` has a 1 if the bit shifted out was 1
(44_crc24.md R320). -/
theorem getLsbD_crcStep (r : Word24) (b : Bool) {i : Nat} (hi : i < 24) :
    (crcStep r b).getLsbD i =
      ((if i = 0 then b else r.getLsbD (i - 1)) ^^ (r.getLsbD 23 && crcPoly.getLsbD i)) := by
  have hincoming : (if b then (1 : Word24) else 0).getLsbD i = (decide (i = 0) && b) := by
    cases b with
    | false => rw [Bool.and_false]; exact BitVec.getLsbD_zero
    | true => exact BitVec.getLsbD_one.trans (by simp)
  have hshift : ((r <<< 1) ||| (if b then 1 else 0)).getLsbD i = if i = 0 then b else r.getLsbD (i - 1) := by
    rw [BitVec.getLsbD_or, hincoming, BitVec.getLsbD_shiftLeft]
    by_cases h0 : i = 0
    · simp [h0]
    · simp [h0, hi]
  cases hout : r.getLsbD 23 with
  | false => simp only [crcStep, hout, Bool.false_eq_true, if_false, hshift, Bool.false_and, Bool.xor_false]
  | true => simp only [crcStep, hout, if_true, BitVec.getLsbD_xor, hshift, Bool.true_and]

/-- A step is linear in the register and the bit together (44_crc24.md R323). -/
theorem crcStep_xor (r r' : Word24) (b b' : Bool) :
    crcStep (r ^^^ r') (b ^^ b') = crcStep r b ^^^ crcStep r' b' := by
  refine BitVec.eq_of_getLsbD_eq fun i hi => ?_
  rw [BitVec.getLsbD_xor, getLsbD_crcStep _ _ hi, getLsbD_crcStep _ _ hi, getLsbD_crcStep _ _ hi, BitVec.getLsbD_xor,
    BitVec.getLsbD_xor, Bool.and_xor_distrib_right]
  split <;> simp only [Bool.xor_assoc, Bool.xor_left_comm]

theorem crcStep_zero_false : crcStep 0 false = 0 := by decide

theorem crcStep_zero_true : crcStep 0 true = 1 := by decide

/-- A zero bit never clears a nonzero register: bit 0 of the result is the bit shifted out, because `CRC_POLY` has bit 0
set, and the other bits are the rest of the register (44_crc24.md R323). -/
theorem crcStep_false_ne_zero {r : Word24} (hr : r ≠ 0) : crcStep r false ≠ 0 := by
  intro hzero
  have hbit : ∀ i < 24,
      ((if i = 0 then false else r.getLsbD (i - 1)) ^^ (r.getLsbD 23 && crcPoly.getLsbD i)) = false :=
    fun i hi => by rw [← getLsbD_crcStep r false hi, hzero]; exact BitVec.getLsbD_zero
  have hout : r.getLsbD 23 = false := by simpa [crcPoly] using hbit 0 (by decide)
  refine hr (BitVec.eq_of_getLsbD_eq fun i hi => ?_)
  rw [show (0 : Word24).getLsbD i = false from BitVec.getLsbD_zero]
  by_cases h23 : i = 23
  · rw [h23, hout]
  · have hnext := hbit (i + 1) (by omega)
    rwa [hout, Bool.false_and, Bool.xor_false, if_neg (Nat.succ_ne_zero i), Nat.add_sub_cancel] at hnext

/-- While the top bits of the register are zero a step only shifts the next bit in: `p`'s first bits are followed by its
next one. -/
theorem crcStep_ushiftRight (p : Word24) {m : Nat} (hm : m < 24) :
    crcStep (p >>> (m + 1)) (p.getLsbD m) = p >>> m := by
  refine BitVec.eq_of_getLsbD_eq fun i hi => ?_
  have hout : (p >>> (m + 1)).getLsbD 23 = false := by
    rw [BitVec.getLsbD_ushiftRight]
    exact BitVec.getLsbD_of_ge _ _ (by omega)
  rw [getLsbD_crcStep _ _ hi, hout, Bool.false_and, Bool.xor_false, BitVec.getLsbD_ushiftRight,
    BitVec.getLsbD_ushiftRight]
  split
  · next h0 => rw [h0, Nat.add_zero]
  · next h0 => exact congrArg p.getLsbD (by omega)

/-! ## A run of steps -/

theorem foldl_crcStep_xor {bs bs' : List Bool} (hlen : bs.length = bs'.length) (r r' : Word24) :
    (List.zipWith (· ^^ ·) bs bs').foldl crcStep (r ^^^ r') = bs.foldl crcStep r ^^^ bs'.foldl crcStep r' := by
  induction bs generalizing bs' r r' with
  | nil => rw [List.length_eq_zero_iff.1 hlen.symm]; rfl
  | cons b bs ih =>
    cases bs' with
    | nil => exact absurd hlen (Nat.succ_ne_zero _)
    | cons b' bs' =>
      rw [List.zipWith_cons_cons, List.foldl_cons, List.foldl_cons, List.foldl_cons, crcStep_xor]
      exact ih (Nat.succ.inj hlen) _ _

theorem foldl_crcStep_zero_replicate_false (n : Nat) : (List.replicate n false).foldl crcStep 0 = 0 := by
  induction n with
  | zero => rfl
  | succ n ih => rw [List.replicate_succ, List.foldl_cons, crcStep_zero_false, ih]

theorem foldl_crcStep_replicate_false_ne_zero {r : Word24} (hr : r ≠ 0) (n : Nat) :
    (List.replicate n false).foldl crcStep r ≠ 0 := by
  induction n generalizing r with
  | zero => exact hr
  | succ n ih => exact ih (crcStep_false_ne_zero hr)

/-- The zeros before the one set bit leave the register 0, that bit makes it 1, and the zeros after it never
clear it. -/
theorem foldl_crcStep_single_bit_ne_zero {n k : Nat} (hk : k < n) :
    ((List.replicate n false).modify k (!·)).foldl crcStep 0 ≠ 0 := by
  induction k generalizing n with
  | zero =>
    obtain ⟨n, rfl⟩ := Nat.exists_eq_succ_of_ne_zero (Nat.ne_of_gt hk)
    rw [List.replicate_succ, List.modify_zero_cons, List.foldl_cons, Bool.not_false, crcStep_zero_true]
    exact foldl_crcStep_replicate_false_ne_zero (by decide) n
  | succ k ih =>
    obtain ⟨n, rfl⟩ := Nat.exists_eq_succ_of_ne_zero (Nat.ne_of_gt (Nat.zero_lt_of_lt hk))
    rw [List.replicate_succ, List.modify_succ_cons, List.foldl_cons, crcStep_zero_false]
    exact ih (Nat.lt_of_succ_lt_succ hk)

/-- From the first bits of `p`, its last `m` bits, most significant first, complete the register to `p`. -/
theorem foldl_crcStep_fill (p : Word24) {m : Nat} (hm : m ≤ 24) :
    ((List.range m).map fun k => p.getLsbD (m - 1 - k)).foldl crcStep (p >>> m) = p := by
  induction m with
  | zero => exact BitVec.ushiftRight_zero p
  | succ m ih =>
    have htail : ((fun k => p.getLsbD (m + 1 - 1 - k)) ∘ Nat.succ) = fun k => p.getLsbD (m - 1 - k) :=
      funext fun k => congrArg p.getLsbD (by omega)
    rw [List.range_succ_eq_map, List.map_cons, List.map_map, htail, List.foldl_cons, Nat.add_sub_cancel, Nat.sub_zero,
      crcStep_ushiftRight p hm]
    exact ih (Nat.le_of_succ_le hm)

/-! ## The stream bits of built byte sequences -/

theorem streamBits_length (buf : List Byte) : (streamBits buf).length = 8 * buf.length := by
  rw [streamBits, List.length_map, List.length_range]

theorem streamBits_getElem {buf : List Byte} {k : Nat} (hk : k < (streamBits buf).length) :
    (streamBits buf)[k] = streamBit buf k := by
  simp only [streamBits, List.getElem_map, List.getElem_range]

theorem streamBit_append (a b : List Byte) (k : Nat) :
    streamBit (a ++ b) k = if k < 8 * a.length then streamBit a k else streamBit b (k - 8 * a.length) := by
  split
  · rw [streamBit, List.getD_append _ _ _ _ (by omega), streamBit]
  · have hbyte : k / 8 - a.length = (k - 8 * a.length) / 8 := by omega
    have hval : k % 8 = (k - 8 * a.length) % 8 := by omega
    rw [streamBit, List.getD_append_right _ _ _ _ (by omega), hbyte, hval, streamBit]

theorem streamBits_append (a b : List Byte) : streamBits (a ++ b) = streamBits a ++ streamBits b := by
  refine List.ext_getElem (by simp only [streamBits_length, List.length_append]; omega) fun k _ _ => ?_
  rw [streamBits_getElem, streamBit_append, List.getElem_append]
  simp only [streamBits_getElem, streamBits_length]
  split <;> rfl

theorem streamBits_replicate_zero (n : Nat) : streamBits (List.replicate n 0) = List.replicate (8 * n) false := by
  refine List.ext_getElem (by simp only [streamBits_length, List.length_replicate]) fun k _ _ => ?_
  rw [streamBits_getElem, streamBit_replicate_zero, List.getElem_replicate]

theorem streamBits_zipWith_xor {a b : List Byte} (hlen : a.length = b.length) :
    streamBits (List.zipWith (· ^^^ ·) a b) = List.zipWith (· ^^ ·) (streamBits a) (streamBits b) := by
  refine List.ext_getElem (by simp [streamBits_length, hlen]) fun k hk _ => ?_
  have hbyte : k / 8 < a.length := by
    simp only [streamBits_length, List.length_zipWith] at hk
    omega
  simp only [streamBits_getElem, List.getElem_zipWith, streamBit]
  rw [List.getD_eq_getElem _ _ (by rwa [List.length_zipWith, ← hlen, min_self]), List.getD_eq_getElem _ _ hbyte,
    List.getD_eq_getElem _ _ (hlen ▸ hbyte : k / 8 < b.length), List.getElem_zipWith, BitVec.getLsbD_xor]

/-! ## The remainder -/

theorem crcRem_append (a b : List Byte) : crcRem (a ++ b) = (streamBits b).foldl crcStep (crcRem a) := by
  rw [crcRem, streamBits_append, List.foldl_append, crcRem]

theorem crcRem_replicate_zero (n : Nat) : crcRem (List.replicate n 0) = 0 := by
  rw [crcRem, streamBits_replicate_zero]
  exact foldl_crcStep_zero_replicate_false _

theorem crcRem_zipWith_xor {a b : List Byte} (hlen : a.length = b.length) :
    crcRem (List.zipWith (· ^^^ ·) a b) = crcRem a ^^^ crcRem b := by
  rw [crcRem, streamBits_zipWith_xor hlen]
  exact foldl_crcStep_xor (by rw [streamBits_length, streamBits_length, hlen]) 0 0

/-! ## One flipped bit -/

/-- The byte sequence with stream bit `k` flipped. -/
def flipStreamBit (buf : List Byte) (k : Nat) : List Byte := buf.modify (k / 8) (· ^^^ (1 <<< (7 - k % 8)))

theorem flipStreamBit_length (buf : List Byte) (k : Nat) : (flipStreamBit buf k).length = buf.length :=
  List.length_modify ..

theorem flipStreamBit_eq_zipWith_xor (buf : List Byte) (k : Nat) :
    flipStreamBit buf k = List.zipWith (· ^^^ ·) buf (flipStreamBit (List.replicate buf.length 0) k) := by
  refine List.ext_getElem (by simp [flipStreamBit_length]) fun i _ _ => ?_
  simp only [flipStreamBit, List.getElem_modify, List.getElem_zipWith, List.getElem_replicate]
  split
  · exact congrArg _ BitVec.zero_xor.symm
  · exact BitVec.xor_zero.symm

theorem streamBit_flipStreamBit {buf : List Byte} {k : Nat} (hk : k < 8 * buf.length) (j : Nat) :
    streamBit (flipStreamBit buf k) j = (streamBit buf j ^^ decide (k = j)) := by
  rw [streamBit, streamBit, flipStreamBit, List.getD_eq_getElem?_getD, List.getD_eq_getElem?_getD]
  by_cases hbyte : k / 8 = j / 8
  · have hlt : j / 8 < buf.length := by omega
    have hval : 7 - j % 8 = 7 - k % 8 ↔ k = j := by omega
    rw [hbyte, List.getElem?_modify_eq, List.getElem?_eq_getElem hlt, Option.map_eq_map, Option.map_some,
      Option.getD_some, Option.getD_some, BitVec.getLsbD_xor]
    exact congrArg _ ((getLsbD_one_shiftLeft (by omega)).trans (decide_eq_decide.2 hval))
  · have hne : k ≠ j := fun h => hbyte (h ▸ rfl)
    rw [List.getElem?_modify_ne _ _ hbyte, decide_eq_false hne, Bool.xor_false]

theorem streamBits_flipStreamBit {buf : List Byte} {k : Nat} (hk : k < 8 * buf.length) :
    streamBits (flipStreamBit buf k) = (streamBits buf).modify k (!·) := by
  refine List.ext_getElem (by simp only [List.length_modify, streamBits_length, flipStreamBit_length]) fun j _ _ => ?_
  rw [streamBits_getElem, streamBit_flipStreamBit hk, List.getElem_modify, streamBits_getElem]
  split
  · next hkj => rw [decide_eq_true hkj, Bool.xor_true]
  · next hkj => rw [decide_eq_false hkj, Bool.xor_false]

theorem crcRem_flipStreamBit (buf : List Byte) (k : Nat) :
    crcRem (flipStreamBit buf k) = crcRem buf ^^^ crcRem (flipStreamBit (List.replicate buf.length 0) k) := by
  conv_lhs => rw [flipStreamBit_eq_zipWith_xor]
  exact crcRem_zipWith_xor (by rw [flipStreamBit_length, List.length_replicate])

theorem crcRem_single_bit_ne_zero {n k : Nat} (hk : k < 8 * n) :
    crcRem (flipStreamBit (List.replicate n 0) k) ≠ 0 := by
  rw [crcRem, streamBits_flipStreamBit (by rwa [List.length_replicate]), streamBits_replicate_zero]
  exact foldl_crcStep_single_bit_ne_zero hk

set_option maxRecDepth 4000 in
theorem crcRem_last_bit : crcRem (List.replicate 13 0 ++ [0x01]) = 0x000001 := by decide

set_option maxRecDepth 4000 in
theorem crcRem_first_bit : crcRem (0x80 :: List.replicate 13 0) = 0x3935EA := by decide

/-- Settles O23: both frames run through the linear register, and a lone set bit survives the zeros after it. -/
theorem crcIsLinear : Obligations.CrcIsLinear := by
  unfold Obligations.CrcIsLinear
  refine ⟨fun _ _ => crcRem_zipWith_xor, fun f k hlen hvalid hk => ?_, crcRem_last_bit, crcRem_first_bit⟩
  have hflip : crcRem (flipStreamBit f k) = crcRem (flipStreamBit (List.replicate 14 0) k) := by
    rw [crcRem_flipStreamBit, hvalid, hlen]
    exact BitVec.zero_xor
  exact ⟨hflip, hflip.trans_ne (crcRem_single_bit_ne_zero hk)⟩

/-! ## The parity -/

/-- A 24-bit parity as three bytes, most significant byte first (44_crc24.md R326). -/
def parityBytes (p : Word24) : List Byte := [p.extractLsb' 16 8, p.extractLsb' 8 8, p.extractLsb' 0 8]

theorem streamBits_parityBytes (p : Word24) :
    streamBits (parityBytes p) = (List.range 24).map fun k => p.getLsbD (23 - k) := by
  refine List.map_congr_left fun k hk => ?_
  have hk24 : k < 24 := List.mem_range.1 hk
  have hval : 7 - k % 8 < 8 := by omega
  obtain hbyte | hbyte | hbyte : k / 8 = 0 ∨ k / 8 = 1 ∨ k / 8 = 2 := by omega
  all_goals
    rw [streamBit, hbyte]
    simp only [parityBytes, List.getD_cons_zero, List.getD_cons_succ, BitVec.getLsbD_extractLsb', hval, decide_true,
      Bool.true_and]
    exact congrArg p.getLsbD (by omega)

/-- After leading zero bytes the register is still 0, and the 24 bits of the parity only fill it. -/
theorem crcRem_zeros_parityBytes (n : Nat) (p : Word24) : crcRem (List.replicate n 0 ++ parityBytes p) = p := by
  have hempty : p >>> 24 = 0 := BitVec.ushiftRight_eq_zero le_rfl
  rw [crcRem_append, crcRem_replicate_zero, streamBits_parityBytes, ← hempty]
  exact foldl_crcStep_fill p le_rfl

theorem append_parityBytes_eq_zipWith_xor (d : List Byte) (p : Word24) :
    d ++ parityBytes p =
      List.zipWith (· ^^^ ·) (d ++ [0, 0, 0]) (List.replicate d.length 0 ++ parityBytes p) := by
  induction d with
  | nil => simp [parityBytes]
  | cons b d ih => simpa [List.replicate_succ] using ih

theorem crcRem_append_parityBytes (d : List Byte) (p : Word24) :
    crcRem (d ++ parityBytes p) = crcRem (d ++ [0, 0, 0]) ^^^ p := by
  rw [append_parityBytes_eq_zipWith_xor, crcRem_zipWith_xor (by simp [parityBytes]), crcRem_zeros_parityBytes]

set_option maxRecDepth 4000 in
theorem crcRem_worked_example_padded :
    crcRem [0x8D, 0x48, 0x40, 0xD6, 0x20, 0x2C, 0xC3, 0x71, 0xC3, 0x2C, 0xE0, 0, 0, 0] = 0x576098 := by decide

set_option maxRecDepth 4000 in
theorem crcRem_worked_example_data :
    crcRem [0x8D, 0x48, 0x40, 0xD6, 0x20, 0x2C, 0xC3, 0x71, 0xC3, 0x2C, 0xE0] = 0xE3E6C3 := by decide

/-- Settles O24: by linearity the remainder of data and parity is the padded data's, XOR the parity. -/
theorem parityIsRemainderOfPaddedData : Obligations.ParityIsRemainderOfPaddedData := by
  unfold Obligations.ParityIsRemainderOfPaddedData
  refine ⟨fun d p _ => ?_, crcRem_zeros_parityBytes 11, crcRem_worked_example_padded, crcRem_worked_example_data⟩
  calc crcRem (d ++ parityBytes p) = 0 ↔ crcRem (d ++ [0, 0, 0]) ^^^ p = 0 := by rw [crcRem_append_parityBytes]
    _ ↔ p = crcRem (d ++ [0, 0, 0]) := BitVec.xor_eq_zero_iff.trans eq_comm

end Sys2Proof.Machine
end

section
/-! Two moves of the pipeline at the producer's end: the failed read that stops the producer (47_pipeline.md R433), and
the coordinator's join that sees it finish (R438). -/

namespace Sys2Proof.Machine

/-! ## H_SRC_ERR -/

theorem exec_hSrcErr (s : State) : exec .hSrcErr s = execHSrcErr s := rfl

theorem readRequested_eq_true_iff {s : State} : s.readRequested = true ↔ s.sys.ps = .read := by
  unfold State.readRequested
  split
  next hps => exact iff_of_true rfl hps
  next hps => exact iff_of_false Bool.false_ne_true hps

theorem execHSrcErr_of_read {s : State} (hl : Live s) (hps : s.sys.ps = .read) :
    execHSrcErr s = .next ((s.setAcqErr true).setPs .stop) := by
  rw [execHSrcErr, whenLive_of_live hl, if_pos (readRequested_eq_true_iff.2 hps)]

/-- Settles O40: in P_READ the source's answer is asked for, so H_SRC_ERR is accepted. -/
theorem hSrcErrStopsProducer : Obligations.HSrcErrStopsProducer := by
  unfold Obligations.HSrcErrStopsProducer
  refine ⟨rfl, rfl, fun s hl hps => ?_⟩
  rw [exec_hSrcErr, execHSrcErr_of_read hl hps]
  rfl

/-! ## CO_JOIN_P -/

theorem exec_coJoinP (s : State) : exec .coJoinP s = execCoJoinP s := rfl

theorem execCoJoinP_of_done {s : State} (hl : Live s) (hco : s.sys.co = .waitP) (hps : s.sys.ps = .done) :
    execCoJoinP s = .next (s.setCo .waitC) := by
  rw [execCoJoinP, whenLive_of_live hl, hco, hps]

/-- After START a finished producer has left `End`: in the FIFO, or with the consumer (10_state.md R76 item 3). -/
theorem RunInv.endMark_mem_or_done {s : State} (hinv : RunInv s) (hco : s.sys.co ≠ .idle) (hps : s.sys.ps = .done) :
    .endMark ∈ s.sys.fifo ∨ s.sys.cs = .done :=
  (hinv.done_iff hco).1 hps

/-- Settles O45: CO_WAIT_P lies after START, so the invariant says where `End` is. -/
theorem coJoinPSeesProducerDone : Obligations.CoJoinPSeesProducerDone := by
  unfold Obligations.CoJoinPSeesProducerDone
  refine ⟨rfl, fun s hl hco hps => ⟨?_, fun hinv => ?_⟩⟩
  · rw [exec_coJoinP, execCoJoinP_of_done hl hco hps]
    rfl
  · have hstarted : s.sys.co ≠ .idle := by simp [hco]
    exact hinv.endMark_mem_or_done hstarted hps

end Sys2Proof.Machine
end

section
/-! Reset (70_reset_and_hazards.md R520): the one event that no state refuses, a recorded fault included (R482). -/

namespace Sys2Proof.Machine

@[simp] theorem State.reset_sys : State.reset.sys = Sys.reset := rfl

/-- Every field of `Sys` at its reset value (10_state.md R52), in the order of the record. -/
theorem Sys.reset_fields :
    Sys.reset.co = .idle ∧ Sys.reset.ps = .idle ∧ Sys.reset.cs = .idle ∧ Sys.reset.fifo = [] ∧
    Sys.reset.cancel = false ∧ Sys.reset.acqErr = false ∧ Sys.reset.fault = none ∧ Sys.reset.out = [] ∧
    Sys.reset.status = none :=
  ⟨rfl, rfl, rfl, rfl, rfl, rfl, rfl, rfl, rfl⟩

/-- Settles O52: the event leads every state to `s.afterReset`, whose `Sys` does not depend on `s`. -/
theorem resetWritesEveryField : Obligations.ResetWritesEveryField := by
  unfold Obligations.ResetWritesEveryField
  intro s
  refine ⟨s.afterReset, takeEvent_reset s, s.afterReset_cfg, ?_⟩
  rw [State.afterReset_sys, State.reset_sys]
  obtain ⟨hco, hps, hcs, hfifo, hcancel, hacq, hfault, hout, hstatus⟩ := Sys.reset_fields
  exact ⟨hco, hps, hcs, hfifo, hcancel, hacq, hfault, hout, hstatus, rfl⟩

end Sys2Proof.Machine
end

section
/-! The decoder inverts the encoder (30_encoding.md R150 to R153), so the step of a decoded transaction is `exec` of the
one operation it encodes (47_pipeline.md R441). -/

namespace Sys2Proof

/-! ## Decoding and encoding -/

theorem decode_encode (i : Instr) : decode (encode i) = .ok i := by
  cases i <;> rfl

/-- Each command word fixes the shape of its fields, so nothing of the transaction is dropped. -/
theorem encode_of_decode {r : Request} {i : Instr} (h : decode r = .ok i) : encode i = r := by
  obtain ⟨w, fs⟩ := r
  unfold decode at h
  split at h
  all_goals first
    | cases h
    | (split at h <;> cases h
       exact congrArg₂ Request.mk (Eq.symm ‹_›) (Eq.symm ‹_›))

theorem decode_eq_ok_iff {r : Request} {i : Instr} : decode r = .ok i ↔ encode i = r :=
  ⟨encode_of_decode, fun h => h ▸ decode_encode i⟩

/-- Settles O1: the table is read in both directions. -/
theorem decodeInvertsEncode : Obligations.DecodeInvertsEncode := by
  unfold Obligations.DecodeInvertsEncode
  exact fun _ _ => decode_eq_ok_iff

/-- Settles O2: each word is the one its operation encodes to. -/
theorem opcodeMapSamples : Obligations.OpcodeMapSamples := by
  unfold Obligations.OpcodeMapSamples
  exact ⟨decode_encode (.mag 255 127), decode_encode (.preamble [1] ⟨1, 2, 3⟩ 4), decode_encode (.xbits [0xF8] 0 5),
    decode_encode (.push .endMark), decode_encode .cScan, decode_encode .hCancel⟩

theorem portOf_of_decode {r : Request} {i : Instr} (h : decode r = .ok i) : portOf r.word = some i.port := by
  rw [← encode_of_decode h]
  exact portOf_word i

namespace Machine

/-! ## The fault halt -/

theorem whenLive_of_not_live {s : State} (h : ¬ Live s) (r : Out) : whenLive s r = .next s := by
  obtain ⟨f, hf⟩ := Option.ne_none_iff_exists'.1 h
  exact whenLive_of_fault hf r

/-- Every operation is guarded by the halt (47_pipeline.md R442). -/
theorem exec_of_fault {s : State} (h : ¬ Live s) (i : Instr) : exec i s = .next s := by
  cases i <;> exact whenLive_of_not_live h _

/-! ## Taking an event -/

/-- A command or host move is not looked at twice: the halt of `takeHost` is the one `exec` has. -/
theorem takeHost_of_decode {r : Request} {i : Instr} {s : State} (h : decode r = .ok i) (hp : i.port ≠ .step) :
    takeHost r s = exec i s := by
  by_cases hl : Live s
  · rw [takeHost, whenLive_of_live hl, portOf_of_decode h, h]
    cases hport : i.port with
    | cmd => rfl
    | host => rfl
    | step => exact absurd hport hp
  · rw [takeHost, whenLive_of_not_live hl, exec_of_fault hl]

theorem takeAgent_of_decode {w : BitVec 8} {i : Instr} {s : State} (h : decode ⟨w, []⟩ = .ok i) (hp : i.port = .step) :
    takeAgent w s = exec i s := by
  have hport : portOf w = some .step := hp ▸ portOf_of_decode h
  rw [takeAgent, hport, h]

theorem takeEvent_next_of_fault {ev : Event} {s t : State} (hf : s.sys.fault ≠ none) (hev : ev ≠ .reset)
    (h : takeEvent ev s = .next t) : t = s := by
  have hhalt : takeEvent ev s = .next s := by
    cases ev with
    | host r => exact whenLive_of_not_live hf _
    | agent w =>
      obtain ⟨i, _, _, hexec⟩ := takeAgent_next h
      rw [h, ← hexec, exec_of_fault hf]
    | port p => exact whenLive_of_not_live hf _
    | reset => exact absurd rfl hev
  rw [hhalt] at h
  injection h with h
  exact h.symm

/-- Settles O3: each event is taken by its own function, and a decoded transaction or label by `exec`. -/
theorem stepRunsDecodedInstr : Obligations.StepRunsDecodedInstr := by
  unfold Obligations.StepRunsDecodedInstr
  refine ⟨fun s r rest i hs hd hp => ?_, fun s w rest i hs hd hp => ?_, fun s r rest hs => step_cons hs,
    fun s p rest hs => step_cons hs, fun s rest hs => step_cons hs, fun s hs => step_nil hs⟩
  · rw [step_cons hs, takeEvent_host, takeHost_of_decode hd hp]
    rfl
  · rw [step_cons hs, takeEvent_agent, takeAgent_of_decode hd hp]
    rfl

/-- Settles O49: every operation, transaction and waiting port is guarded by the halt, so only the event is used up. -/
theorem faultedCoreStandsStill : Obligations.FaultedCoreStandsStill := by
  unfold Obligations.FaultedCoreStandsStill
  refine ⟨fun i s hf => exec_of_fault hf i, fun s t hf hstep hreset => ?_⟩
  rcases step_next hstep with ⟨hs, rfl⟩ | ⟨ev, rest, hs, htake⟩
  · obtain ⟨cfg, sys, units, pushPort, popPort, replies, sched⟩ := t
    cases hs
    rfl
  · rw [hs]
    have hev : ev ≠ .reset := fun h => hreset (by rw [hs, h]; rfl)
    exact takeEvent_next_of_fault (s := s.setSched rest) hf hev htake

end Machine

end Sys2Proof
end

section
/-! What a command-port transaction answers, written out as the next state; then magnitude_calculator and
adaptive_threshold_estimator (40_magnitude.md, 41_threshold.md). -/

namespace Sys2Proof.Machine

/-! ## The next state of a command -/

theorem command_reply {s : State} (hl : Live s) {op : BitVec 8} {r : Except Raise (Result × Units)} {v : Result}
    (h : r = .ok (v, s.units)) : command op s r = .next { s with replies := s.replies ++ [⟨op, v⟩] } := by
  rw [h, command_ok hl]
  rfl

theorem command_reply_units {s : State} (hl : Live s) {op : BitVec 8} {r : Except Raise (Result × Units)} {v : Result}
    {u : Units} (h : r = .ok (v, u)) :
    command op s r = .next { s with units := u, replies := s.replies ++ [⟨op, v⟩] } := by
  rw [h, command_ok hl]
  rfl

theorem command_raise {s : State} (hl : Live s) {op : BitVec 8} {r : Except Raise (Result × Units)} {f : Raise}
    (h : r = .error f) :
    command op s r = .next { s with sys := { s.sys with fault := some ⟨f.kind.code, op, f.info⟩ } } := by
  rw [h, command_error hl, State.raise_of_live hl]
  rfl

@[simp] theorem map_ok {α β : Type} (f : α → β) (v : α) : (Except.ok v : Except Raise α).map f = .ok (f v) := rfl

@[simp] theorem map_error {α β : Type} (f : α → β) (e : Raise) : (Except.error e : Except Raise α).map f = .error e :=
  rfl

theorem seqBelow_iff {w : Nat} {xs : List Nat} : seqBelow w xs = true ↔ ∀ x ∈ xs, x < 2 ^ w := by
  simp [seqBelow]

theorem checkBytes_ok {pos : Nat} {xs : List Nat} (h : ∀ b ∈ xs, b < 256) : checkBytes pos xs = .ok () :=
  checkSeq_eq_ok.2 (seqBelow_iff.2 h)

theorem checkBuffer_ok {pos : Nat} {mb : List Nat} (h : ∀ x ∈ mb, x < 2 ^ 19) : checkBuffer pos mb = .ok () :=
  checkSeq_eq_ok.2 (seqBelow_iff.2 h)

/-! ## MAG and MAGBLK -/

/-- Settles O6: the operands are checked in position order. -/
theorem magGivesSquaredPower : Obligations.MagGivesSquaredPower := by
  unfold Obligations.MagGivesSquaredPower
  refine fun s i q hl => ⟨fun hi hq => ⟨_, magnitude_cast s.cfg.c i q, ?_⟩, fun hi => ?_, fun hi hq => ?_⟩
  · exact command_reply hl (by rw [checkNum_of_lt hi, checkNum_of_lt hq]; rfl)
  · exact command_raise hl (f := badOperand 0 i) (by rw [checkNum_of_ge hi, after_error])
  · exact command_raise hl (f := badOperand 1 q) (by rw [checkNum_of_lt hi, checkNum_of_ge hq, after_ok, after_error])

theorem pairMagnitudes_length (c : Nat) (blk : List Nat) : (pairMagnitudes c blk).length = blk.length / 2 := by
  fun_induction pairMagnitudes c blk with
  | case1 i q rest ih => simp only [List.length_cons, ih]; omega
  | case2 blk hshort =>
    rcases blk with _ | ⟨i, _ | ⟨q, rest⟩⟩
    · rfl
    · simp
    · exact absurd rfl (hshort i q rest)

/-- Magnitude `j` is that of the bytes `2j` and `2j + 1` (20_memory.md R105). -/
theorem pairMagnitudes_getD (c : Nat) (blk : List Nat) {j : Nat} (hj : j < blk.length / 2) :
    (pairMagnitudes c blk).getD j 0 = magnitude c (blk.getD (2 * j) 0) (blk.getD (2 * j + 1) 0) := by
  fun_induction pairMagnitudes c blk generalizing j with
  | case1 i q rest ih =>
    cases j with
    | zero => rfl
    | succ j => exact ih (by simp only [List.length_cons] at hj; omega)
  | case2 blk hshort =>
    rcases blk with _ | ⟨i, _ | ⟨q, rest⟩⟩
    · simp at hj
    · simp at hj
    · exact absurd rfl (hshort i q rest)

/-- The buffer of a block, as R202 says it: half as many squared powers, in the order of the byte pairs. -/
theorem pairMagnitudes_spec (c : Nat) (blk : List Nat) :
    (pairMagnitudes c blk).length = blk.length / 2 ∧
    ∀ j, j < (pairMagnitudes c blk).length → ((pairMagnitudes c blk).getD j 0 : Int) =
      (2 * (blk.getD (2 * j) 0 : Int) - c) ^ 2 + (2 * (blk.getD (2 * j + 1) 0 : Int) - c) ^ 2 := by
  refine ⟨pairMagnitudes_length c blk, fun j hj => ?_⟩
  rw [pairMagnitudes_getD c blk (by rwa [← pairMagnitudes_length c blk]), magnitude_cast]

theorem magBlock_odd {c : Nat} {blk : List Nat} (hb : ∀ b ∈ blk, b < 256) (ho : blk.length % 2 = 1) :
    magBlock c blk = .error ⟨.badBlock, [blk.length]⟩ := by
  rw [magBlock, checkBytes_ok hb, after_ok, if_pos (by omega)]

/-- Settles O8: the buffer is `pairMagnitudes`. -/
theorem magblkMapsPairs : Obligations.MagblkMapsPairs := by
  unfold Obligations.MagblkMapsPairs
  refine fun s blk hl hb => ⟨fun he => ?_, fun ho => ?_⟩
  · obtain ⟨hlen, hget⟩ := pairMagnitudes_spec s.cfg.c blk
    exact ⟨_, hlen, hget, command_reply hl (by rw [magBlock_ok (seqBelow_iff.2 hb) he, map_ok])⟩
  · exact command_raise hl (f := ⟨.badBlock, [blk.length]⟩) (by rw [magBlock_odd hb ho, map_error])

/-! ## STATS -/

/-- The accumulators of a buffer, with the squares written as powers. -/
theorem statsOf_eq_pow (mb : List Nat) : statsOf mb = ⟨mb.length, mb.sum, (mb.map fun x => x ^ 2).sum⟩ := by
  simp only [statsOf_eq, pow_two]

theorem bufferStats_of_divisor_ok {vd : VarDiv} {mb : List Nat} (hne : mb ≠ []) (hd : vd = .pop ∨ 2 ≤ mb.length) :
    bufferStats vd mb = .ok (statsOf mb) := by
  have hlen : 0 < mb.length := List.length_pos_iff.2 hne
  rcases hd with rfl | h2
  · rw [bufferStats, if_neg (by omega), if_neg (by simp)]
  · exact bufferStats_ok h2

/-- Settles O9: one pass over the buffer accumulates the three sums. -/
theorem statsAreSums : Obligations.StatsAreSums := by
  unfold Obligations.StatsAreSums
  refine fun s mb hl hmb => ⟨fun hne hd => ?_, fun hnil => ?_, fun hone hvd => ?_⟩
  · rw [← statsOf_eq_pow]
    refine command_reply_units hl (u := s.units.withStats ⟨_, _, _⟩) ?_
    rw [checkBuffer_ok hmb, bufferStats_of_divisor_ok hne hd, statsOf_eq_pow]
    rfl
  · subst hnil
    exact command_raise hl (f := ⟨.badStats, [0]⟩) rfl
  · refine command_raise hl (f := ⟨.badStats, [1]⟩) ?_
    rw [checkBuffer_ok hmb, bufferStats, if_neg (by omega), if_pos ⟨hvd, hone⟩]
    rfl

/-! ## ABOVE and BELOWHALF -/

/-- Statistics that no comparison refuses (41_threshold.md R233). -/
theorem checkStats_eq_ok {vd : VarDiv} {st : Stats} :
    checkStats vd st = .ok () ↔
      st.n ≠ 0 ∧ (vd = .sample → st.n ≠ 1) ∧ st.s1 * st.s1 ≤ st.n * st.s2 := by
  unfold checkStats
  split
  next hbad =>
    refine iff_of_false (fun h => nomatch h) ?_
    rintro ⟨h0, h1, hD⟩
    rcases hbad with hn | ⟨hvd, hn⟩ | hlt
    · exact h0 hn
    · exact h1 hvd hn
    · exact hlt.not_ge hD
  next hok =>
    rw [not_or, not_or, not_and, not_lt] at hok
    exact iff_of_true rfl hok

theorem checkStats_eq_error {vd : VarDiv} {st : Stats}
    (h : st.n = 0 ∨ (vd = .sample ∧ st.n = 1) ∨ st.n * st.s2 < st.s1 * st.s1) :
    checkStats vd st = .error ⟨.badStats, [st.n]⟩ := if_pos h

theorem checkStats_of_ne_ok {vd : VarDiv} {st : Stats} (h : checkStats vd st ≠ .ok ()) :
    checkStats vd st = .error ⟨.badStats, [st.n]⟩ := by
  unfold checkStats at h ⊢
  split
  · rfl
  · next hok => exact absurd (if_neg hok) h

theorem sqrt_lt_iff_pos_and_lt_sq {y z : ℝ} : √z < y ↔ 0 < y ∧ z < y ^ 2 := by
  constructor
  · intro h
    have hy : 0 < y := (Real.sqrt_nonneg z).trans_lt h
    exact ⟨hy, (Real.sqrt_lt' hy).1 h⟩
  · rintro ⟨hy, h⟩
    exact (Real.sqrt_lt' hy).2 h

theorem lt_sqrt_iff_neg_or_sq_lt {y z : ℝ} : y < √z ↔ y < 0 ∨ y ^ 2 < z := by
  rcases lt_or_ge y 0 with hy | hy
  · exact iff_of_true (hy.trans_le (Real.sqrt_nonneg z)) (.inl hy)
  · rw [Real.lt_sqrt hy, or_iff_right (not_lt.2 hy)]

section RealThreshold

variable {vd : VarDiv} {st : Stats} {v : ℝ} (h0 : st.n ≠ 0) (h1 : vd = .sample → st.n ≠ 1)
  (hv : v = ((st.n : ℝ) * st.s2 - (st.s1 : ℝ) * st.s1) / varianceDivisor vd st.n)
include h0 h1

theorem distanceWeight_pos : (0 : ℝ) < distanceWeight vd st := by
  cases vd with
  | pop => simp [distanceWeight]
  | sample =>
    have hn : (1 : ℝ) < st.n := by
      have := h1 rfl
      exact_mod_cast show 1 < st.n by omega
    simpa [distanceWeight] using hn

include hv

/-- Both integer forms are the real ones multiplied by the weight and by `n²` (41_threshold.md R236). -/
theorem spreadBound_eq : (spreadBound vd st : ℝ) = distanceWeight vd st * ((4 * v) * (st.n : ℝ) ^ 2) := by
  have hn : (st.n : ℝ) ≠ 0 := Nat.cast_ne_zero.2 h0
  have hw := (distanceWeight_pos h0 h1).ne'
  cases vd with
  | pop =>
    simp only [spreadBound, distanceWeight, statsD, threshK2, threshK, hv, varianceDivisor]
    push_cast
    field_simp
  | sample =>
    simp only [distanceWeight, Int.cast_sub, Int.cast_natCast, Int.cast_one] at hw
    simp only [spreadBound, distanceWeight, statsD, threshK2, threshK, hv, varianceDivisor]
    push_cast
    field_simp

/-- The weighted squared distance exceeds the bound when the real one exceeds the real bound. -/
theorem spreadBound_lt_iff (a : Int) :
    spreadBound vd st < distanceWeight vd st * a ^ 2 ↔ 4 * v < ((a : ℝ) / st.n) ^ 2 := by
  have hn : (0 : ℝ) < st.n := Nat.cast_pos.2 (Nat.pos_of_ne_zero h0)
  rw [← @Int.cast_lt ℝ, Int.cast_mul, Int.cast_pow, spreadBound_eq h0 h1 hv,
    mul_lt_mul_iff_right₀ (distanceWeight_pos h0 h1), div_pow, lt_div_iff₀ (pow_pos hn 2)]

theorem lt_spreadBound_iff (a : Int) :
    distanceWeight vd st * a ^ 2 < spreadBound vd st ↔ ((a : ℝ) / st.n) ^ 2 < 4 * v := by
  have hn : (0 : ℝ) < st.n := Nat.cast_pos.2 (Nat.pos_of_ne_zero h0)
  rw [← @Int.cast_lt ℝ, Int.cast_mul, Int.cast_pow, spreadBound_eq h0 h1 hv,
    mul_lt_mul_iff_right₀ (distanceWeight_pos h0 h1), div_pow, div_lt_iff₀ (pow_pos hn 2)]

omit h1 hv in
theorem pos_iff_div_pos (a : Int) : 0 < a ↔ 0 < (a : ℝ) / st.n := by
  rw [div_pos_iff_of_pos_right (Nat.cast_pos.2 (Nat.pos_of_ne_zero h0)), Int.cast_pos]

omit h1 hv in
theorem neg_iff_div_neg (a : Int) : a < 0 ↔ (a : ℝ) / st.n < 0 := by
  rw [div_lt_iff₀ (Nat.cast_pos.2 (Nat.pos_of_ne_zero h0)), zero_mul, Int.cast_lt_zero]

omit h0 h1 hv in
theorem two_mul_sqrt (v : ℝ) : 2 * √v = √(4 * v) := by
  rw [Real.sqrt_mul (by norm_num), show (4 : ℝ) = 2 ^ 2 by norm_num, Real.sqrt_sq (by norm_num)]

/-- ABOVE's integer form is the comparison with the real threshold (41_threshold.md R230, R236). -/
theorem aboveBit_iff_threshold_lt (x : Nat) :
    aboveBit vd x st = true ↔ (st.s1 : ℝ) / st.n + 2 * √v < x := by
  have hn : (st.n : ℝ) ≠ 0 := Nat.cast_ne_zero.2 h0
  have hdist : (((st.n : Int) * x - st.s1 : Int) : ℝ) / st.n = x - (st.s1 : ℝ) / st.n := by
    push_cast
    field_simp
  rw [aboveBit_eq_true_iff, pos_iff_div_pos h0, spreadBound_lt_iff h0 h1 hv, hdist, ← sqrt_lt_iff_pos_and_lt_sq,
    two_mul_sqrt, lt_sub_iff_add_lt']

/-- BELOWHALF's integer form is the comparison with half of the real threshold (41_threshold.md R230, R236). -/
theorem belowHalfBit_iff_lt_half_threshold (x : Nat) :
    belowHalfBit vd x st = true ↔ (x : ℝ) < 1 / 2 * ((st.s1 : ℝ) / st.n + 2 * √v) := by
  have hn : (st.n : ℝ) ≠ 0 := Nat.cast_ne_zero.2 h0
  have hdist : ((2 * (st.n : Int) * x - st.s1 : Int) : ℝ) / st.n = 2 * x - (st.s1 : ℝ) / st.n := by
    push_cast
    field_simp
  rw [belowHalfBit_eq_true_iff, neg_iff_div_neg h0, lt_spreadBound_iff h0 h1 hv, hdist,
    ← lt_sqrt_iff_neg_or_sq_lt, two_mul_sqrt]
  constructor <;> intro h <;> linarith

end RealThreshold

/-- Settles O11: the accepted statistics have a positive divisor, and the refused ones are BAD_STATS. -/
theorem aboveIsRealComparison : Obligations.AboveIsRealComparison := by
  unfold Obligations.AboveIsRealComparison
  rintro s x st μ v σ T hl hx rfl hv rfl rfl
  refine ⟨fun h0 h1 hD => ⟨_, aboveBit_iff_threshold_lt h0 h1 hv x, command_reply hl ?_⟩,
    fun hbad => command_raise hl (f := ⟨.badStats, [st.n]⟩) ?_⟩
  · rw [magW, checkNum_of_lt hx, checkStats_eq_ok.2 ⟨h0, h1, hD⟩]
    rfl
  · rw [magW, checkNum_of_lt hx, checkStats_eq_error hbad]
    rfl

/-- Settles O12: as for ABOVE, with the distance of `2x` from the mean. -/
theorem belowHalfIsRealComparison : Obligations.BelowHalfIsRealComparison := by
  unfold Obligations.BelowHalfIsRealComparison
  rintro s x st μ v σ T hl hx rfl hv rfl rfl
  refine ⟨fun h0 h1 hD => ⟨_, belowHalfBit_iff_lt_half_threshold h0 h1 hv x,
    command_reply hl ?_⟩, fun hbad => command_raise hl (f := ⟨.badStats, [st.n]⟩) ?_⟩
  · rw [magW, checkNum_of_lt hx, checkStats_eq_ok.2 ⟨h0, h1, hD⟩]
    rfl
  · rw [magW, checkNum_of_lt hx, checkStats_eq_error hbad]
    rfl

/-- Settles O13: it holds of any statistics, `belowHalfBit_eq_false_of_aboveBit`. -/
theorem aboveAndBelowHalfDisjoint : Obligations.AboveAndBelowHalfDisjoint := by
  unfold Obligations.AboveAndBelowHalfDisjoint
  rintro vd x st _ ⟨ha, hb⟩
  rw [belowHalfBit_eq_false_of_aboveBit ha] at hb
  exact Bool.false_ne_true hb

end Sys2Proof.Machine
end

section
/-! preamble_correlator and ppm_bit_framer (42_preamble.md, 43_ppm_framer.md). -/

namespace Sys2Proof.Machine

/-! ## PREAMBLE -/

/-- The seven comparisons of a match (42_preamble.md R260). -/
theorem matchBit_eq (vd : VarDiv) (mb : List Nat) (st : Stats) (i : Nat) :
    matchBit vd mb st i =
      ((aboveBit vd (mb.getD i 0) st && aboveBit vd (mb.getD (i + 2) 0) st &&
          aboveBit vd (mb.getD (i + 7) 0) st && aboveBit vd (mb.getD (i + 9) 0) st) &&
        (belowHalfBit vd (mb.getD (i + 1) 0) st && belowHalfBit vd (mb.getD (i + 3) 0) st &&
          belowHalfBit vd (mb.getD (i + 8) 0) st)) := by
  simp only [matchBit, highOffs, lowOffs, rd, List.all_cons, List.all_nil, Nat.add_zero, Bool.and_true, Bool.and_assoc]

theorem preamble_of_short {vd : VarDiv} {mb : List Nat} {st : Stats} {i : Nat} (h : mb.length < i + 16) :
    preamble vd mb st i = .error ⟨.outOfRangeSample, [i + 15, mb.length]⟩ := if_pos h

theorem preamble_of_bad_stats {vd : VarDiv} {mb : List Nat} {st : Stats} {i : Nat} (hw : i + 16 ≤ mb.length)
    (hs : checkStats vd st ≠ .ok ()) : preamble vd mb st i = .error ⟨.badStats, [st.n]⟩ := by
  rw [preamble, if_neg (Nat.not_lt.2 hw : ¬ mb.length < i + preLen), checkStats_of_ne_ok hs, after_error]

/-- Settles O14: the window is looked at first, then the statistics, then the seven samples. -/
theorem preambleTestsSevenSamples : Obligations.PreambleTestsSevenSamples := by
  unfold Obligations.PreambleTestsSevenSamples
  refine fun s mb st i hl hmb => ⟨fun hw hs => command_reply hl ?_,
    fun hshort => command_raise hl (f := ⟨.outOfRangeSample, [i + 15, mb.length]⟩) ?_,
    fun hw hs => command_raise hl (f := ⟨.badStats, [st.n]⟩) ?_⟩
  · rw [checkBuffer_ok hmb, after_ok, preamble_eq_ok.2 ⟨hw, hs, rfl⟩, map_ok, matchBit_eq]
  · rw [checkBuffer_ok hmb, after_ok, preamble_of_short hshort, map_error]
  · rw [checkBuffer_ok hmb, after_ok, preamble_of_bad_stats hw hs, map_error]

/-- Settles O15: the match reads the seven samples, and the window only the length. -/
theorem matchIgnoresGuardSamples : Obligations.MatchIgnoresGuardSamples := by
  unfold Obligations.MatchIgnoresGuardSamples
  intro vd mb mb' st i hlen hsame
  have hat (d : Nat) (hd : d ∈ [0, 1, 2, 3, 7, 8, 9]) : mb.getD (i + d) 0 = mb'.getD (i + d) 0 := hsame d hd
  have hmatch : matchBit vd mb st i = matchBit vd mb' st i := by
    have h0 := hat 0 (by decide)
    rw [Nat.add_zero] at h0
    rw [matchBit_eq, matchBit_eq, h0, hat 1 (by decide), hat 2 (by decide), hat 3 (by decide), hat 7 (by decide),
      hat 8 (by decide), hat 9 (by decide)]
  rw [preamble, preamble, hlen, hmatch]

/-! ## PPMBIT -/

theorem ppmBit_of_fits {mb : List Nat} {j : Nat} (h : j + 1 < mb.length) : ppmBit mb j = .ok (pairBit mb j) :=
  if_neg (Nat.not_le.2 h)

theorem ppmBit_of_short {mb : List Nat} {j : Nat} (h : mb.length ≤ j + 1) :
    ppmBit mb j = .error ⟨.outOfRangeSample, [j + 1, mb.length]⟩ := if_pos h

/-- Settles O17: the pair must fit before it is compared. -/
theorem ppmbitComparesPair : Obligations.PpmbitComparesPair := by
  unfold Obligations.PpmbitComparesPair
  refine fun s mb j hl hmb => ⟨fun hfits => command_reply hl ?_,
    fun hshort => command_raise hl (f := ⟨.outOfRangeSample, [j + 1, mb.length]⟩) ?_⟩
  · rw [checkBuffer_ok hmb, after_ok, ppmBit_of_fits hfits, map_ok]
    rfl
  · rw [checkBuffer_ok hmb, after_ok, ppmBit_of_short hshort, map_error]

/-! ## PPMFRAME -/

theorem ppmFrame_of_bad_count {mb : List Nat} {first count : Nat} (h : count = 0 ∨ count % 16 ≠ 0) :
    ppmFrame mb first count = .error ⟨.badCount, [count]⟩ := if_pos h

theorem ppmFrame_of_short {mb : List Nat} {first count : Nat} (h0 : count ≠ 0) (h16 : count % 16 = 0)
    (h : mb.length < first + count) :
    ppmFrame mb first count = .error ⟨.outOfRangeSample, [first + count - 1, mb.length]⟩ := by
  rw [ppmFrame, if_neg (not_or.2 ⟨h0, not_not.2 h16⟩), if_pos h]

/-- Stream bit `k` of a walk's frame is the comparison of pair `k` (43_ppm_framer.md R292). -/
theorem streamBit_walkFrame (mb : List Nat) (first : Nat) {count k : Nat} (h16 : count % 16 = 0) (hk : k < count / 2) :
    streamBit (walkFrame mb first count) k = pairBit mb (first + 2 * k) := by
  have hlen : k < (streamBits (walkFrame mb first count)).length := by
    rw [streamBits_length, walkFrame_length]
    omega
  rw [← streamBits_getElem hlen]
  simp only [streamBits_walkFrame mb first h16, List.getElem_map, List.getElem_range]

/-- Settles O18: the frame is `walkFrame`'s. -/
theorem ppmframePlacesPairBits : Obligations.PpmframePlacesPairBits := by
  unfold Obligations.PpmframePlacesPairBits
  refine fun s mb first count hl hmb =>
    ⟨fun h0 h16 hfits => ⟨_, walkFrame_length mb first count, fun k hk => streamBit_walkFrame mb first h16 hk,
      command_reply_units hl ?_⟩,
    fun hbad => command_raise hl (f := ⟨.badCount, [count]⟩) ?_,
    fun h0 h16 hshort => command_raise hl (f := ⟨.outOfRangeSample, [first + count - 1, mb.length]⟩) ?_⟩
  · rw [checkBuffer_ok hmb, after_ok, ppmFrame_ok h0 h16 hfits, map_ok]
  · rw [checkBuffer_ok hmb, after_ok, ppmFrame_of_bad_count hbad, map_error]
  · rw [checkBuffer_ok hmb, after_ok, ppmFrame_of_short h0 h16 hshort, map_error]

end Sys2Proof.Machine
end

section
/-! crc24_validator (44_crc24.md): the arithmetic of one step, the bits of one byte, and why the register must start
at 0. -/

namespace Sys2Proof.Machine

/-! ## CRCSTEP -/

theorem ofNat_shiftLeft_one (r : Nat) : (BitVec.ofNat 24 r) <<< 1 = BitVec.ofNat 24 (2 ^ 1 * r) :=
  BitVec.eq_of_toNat_eq (by
    rw [BitVec.toNat_shiftLeft, BitVec.toNat_ofNat, BitVec.toNat_ofNat, Nat.shiftLeft_eq, Nat.mul_comm,
      Nat.mul_mod_mod])

/-- The shift with the incoming bit, as the number R320 writes. -/
theorem shift_or_bit_eq_ofNat {r b : Nat} (hb : b < 2) :
    ((BitVec.ofNat 24 r) <<< 1 ||| (if decide (b = 1) then 1 else 0)) = BitVec.ofNat 24 ((2 * r + b) % 2 ^ 24) := by
  have hincoming : (if decide (b = 1) then (1 : Word24) else 0) = BitVec.ofNat 24 b := by
    obtain rfl | rfl : b = 0 ∨ b = 1 := by omega
    all_goals rfl
  rw [hincoming, ofNat_shiftLeft_one, ← BitVec.ofNat_or, ← Nat.two_pow_add_eq_or_of_lt (pow_one 2 ▸ hb)]
  exact BitVec.eq_of_toNat_eq (by simp only [BitVec.toNat_ofNat, pow_one, Nat.mod_mod])

theorem getLsbD_23_ofNat {r : Nat} (hr : r < 2 ^ 24) :
    (BitVec.ofNat 24 r).getLsbD 23 = decide (r / 2 ^ 23 = 1) := by
  have hhalf : r / 2 ^ 23 < 2 := by omega
  rw [BitVec.getLsbD_ofNat, decide_eq_true (by decide : 23 < 24), Bool.true_and, Nat.testBit_eq_decide_div_mod_eq,
    Nat.mod_eq_of_lt hhalf]

theorem crcStep_ofNat {r b : Nat} (hr : r < 2 ^ 24) (hb : b < 2) :
    crcStep (BitVec.ofNat 24 r) (decide (b = 1)) =
      BitVec.ofNat 24 (((2 * r + b) % 2 ^ 24) ^^^ (if r / 2 ^ 23 = 1 then 0xFFF409 else 0)) := by
  rw [crcStep, getLsbD_23_ofNat hr, shift_or_bit_eq_ofNat hb, BitVec.ofNat_xor]
  by_cases h : r / 2 ^ 23 = 1
  · rw [decide_eq_true h, if_pos rfl, if_pos h]
    rfl
  · rw [decide_eq_false h, if_neg Bool.false_ne_true, if_neg h]
    exact BitVec.xor_zero.symm

/-- Settles O20: the operands are checked in position order, and the reply leaves the units as they were. -/
theorem crcstepShiftsAndReduces : Obligations.CrcstepShiftsAndReduces := by
  unfold Obligations.CrcstepShiftsAndReduces
  refine fun s r b hl => ⟨fun hr hb => command_reply hl ?_, fun hr => command_raise hl (f := badOperand 0 r) ?_,
    fun hr hb => command_raise hl (f := badOperand 1 b) ?_⟩
  · rw [checkNum_of_lt hr, checkNum_of_lt hb, after_ok, after_ok, crcStep_ofNat hr hb]
  · rw [checkNum_of_ge hr, after_error]
  · rw [checkNum_of_lt hr, checkNum_of_ge hb, after_ok, after_error]

/-! ## CRCREM and CRCCHECK -/

theorem crcRem_nil : crcRem [] = 0 := rfl

theorem streamBits_singleton (b : Byte) :
    streamBits [b] = [b.getLsbD 7, b.getLsbD 6, b.getLsbD 5, b.getLsbD 4, b.getLsbD 3, b.getLsbD 2, b.getLsbD 1,
      b.getLsbD 0] := rfl

/-- Settles O21: the stream bits of one more byte are its eight bits, most significant first. -/
theorem crcremStepsEveryBit : Obligations.CrcremStepsEveryBit := by
  unfold Obligations.CrcremStepsEveryBit
  refine ⟨crcRem_nil, fun buf b => ?_, fun s buf hl hb => command_reply_units hl ?_⟩
  · rw [crcRem_append, streamBits_singleton]
  · rw [checkBytes_ok hb, after_ok]
    rfl

theorem crcCheck_of_length {frame : List Byte} (h : frame.length ≠ 14) :
    crcCheck frame = .error ⟨.frameLength, [frame.length]⟩ := if_pos h

/-- Settles O22: the length is looked at before the remainder. -/
theorem crccheckIsZeroRemainder : Obligations.CrccheckIsZeroRemainder := by
  unfold Obligations.CrccheckIsZeroRemainder
  refine fun s frame hl hb => ⟨fun hlen => command_reply_units hl ?_,
    fun hlen => command_raise hl (f := ⟨.frameLength, [frame.length]⟩) ?_⟩
  · rw [checkBytes_ok hb, after_ok, crcCheck_ok (by rwa [toBytes_length]), map_ok]
    rfl
  · rw [checkBytes_ok hb, after_ok, crcCheck_of_length (by rwa [toBytes_length]), map_error, toBytes_length]

/-! ## The initial register -/

theorem zipWith_xor_replicate_false (bs : List Bool) :
    List.zipWith (· ^^ ·) (List.replicate bs.length false) bs = bs := by
  induction bs with
  | nil => rfl
  | cons b bs ih => rw [List.length_cons, List.replicate_succ, List.zipWith_cons_cons, ih, Bool.false_xor]

/-- By linearity a run from `r` is the run from 0 with what zeros leave of `r` added (44_crc24.md R323, R324). -/
theorem foldl_crcStep_eq_xor (bs : List Bool) (r : Word24) :
    bs.foldl crcStep r = (List.replicate bs.length false).foldl crcStep r ^^^ bs.foldl crcStep 0 := by
  rw [← foldl_crcStep_xor List.length_replicate r 0, zipWith_xor_replicate_false]
  exact congrArg (bs.foldl crcStep) BitVec.xor_zero.symm

/-- A frame valid from `CRC_INIT` is valid from no other register: zeros never clear a nonzero one. -/
theorem foldl_crcStep_ne_zero_of_crcRem_eq_zero {f : List Byte} (hf : crcRem f = 0) {r : Word24} (hr : r ≠ 0) :
    (streamBits f).foldl crcStep r ≠ 0 := by
  have hvalid : (streamBits f).foldl crcStep 0 = 0 := hf
  rw [foldl_crcStep_eq_xor, hvalid]
  exact BitVec.xor_zero.trans_ne (foldl_crcStep_replicate_false_ne_zero hr _)

set_option maxRecDepth 4000 in
theorem crcRem_worked_example :
    crcRem [0x8D, 0x48, 0x40, 0xD6, 0x20, 0x2C, 0xC3, 0x71, 0xC3, 0x2C, 0xE0, 0x57, 0x60, 0x98] = 0 := by decide

/-- Settles O25: the worked example is valid from register 0. -/
theorem nonzeroStartRejectsWorkedExample : Obligations.NonzeroStartRejectsWorkedExample := by
  unfold Obligations.NonzeroStartRejectsWorkedExample
  exact fun r hr => foldl_crcStep_ne_zero_of_crcRem_eq_zero crcRem_worked_example hr

end Sys2Proof.Machine
end

section
/-! bitfield_decoder (45_bitfield_decoder.md): every result is read off one fact, which stream bit each bit of a range
is. -/

namespace Sys2Proof.Machine

/-! ## A range of stream bits -/

/-- A bit after one more stream bit is shifted in. -/
theorem getLsbD_shiftLeft_one_or (v : Word32) (b : Bool) {i : Nat} (hi : i < 32) :
    (v <<< 1 ||| (if b then 1 else 0)).getLsbD i = if i = 0 then b else v.getLsbD (i - 1) := by
  have hincoming : (if b then (1 : Word32) else 0).getLsbD i = (decide (i = 0) && b) := by
    cases b with
    | false => rw [Bool.and_false]; exact BitVec.getLsbD_zero
    | true => exact BitVec.getLsbD_one.trans (by simp)
  rw [BitVec.getLsbD_or, hincoming, BitVec.getLsbD_shiftLeft]
  by_cases h0 : i = 0
  · simp [h0]
  · simp [h0, hi]

theorem bitRange_empty (buf : List Byte) (lo : Nat) : bitRange buf lo lo = 0 := by
  rw [bitRange, Nat.sub_self]
  rfl

theorem bitRange_succ (buf : List Byte) (lo n : Nat) :
    bitRange buf lo (lo + (n + 1)) = bitRange buf lo (lo + n) <<< 1 ||| (if streamBit buf (lo + n) then 1 else 0) := by
  rw [bitRange, bitRange, Nat.add_sub_cancel_left, Nat.add_sub_cancel_left, List.range_succ, List.foldl_append]
  rfl

/-- Bit `j` of a range is the stream bit `j` places before its last one (45_bitfield_decoder.md R350). -/
theorem getLsbD_bitRange_add (buf : List Byte) (lo : Nat) {n : Nat} (hn : n ≤ 32) (j : Nat) :
    (bitRange buf lo (lo + n)).getLsbD j = (decide (j < n) && streamBit buf (lo + (n - 1 - j))) := by
  induction n generalizing j with
  | zero =>
    rw [Nat.add_zero, bitRange_empty]
    exact BitVec.getLsbD_zero.trans (by simp)
  | succ n ih =>
    by_cases hj : j < 32
    · rw [bitRange_succ, getLsbD_shiftLeft_one_or _ _ hj]
      cases j with
      | zero => simp
      | succ j =>
        rw [if_neg (Nat.succ_ne_zero j), Nat.add_sub_cancel, ih (Nat.le_of_succ_le hn)]
        congr 1
        · exact decide_eq_decide.2 (by omega)
        · exact congrArg (streamBit buf) (by omega)
    · rw [BitVec.getLsbD_of_ge _ _ (Nat.le_of_not_lt hj), decide_eq_false (by omega), Bool.false_and]

theorem getLsbD_bitRange (buf : List Byte) {lo hi : Nat} (hle : lo ≤ hi) (h32 : hi - lo ≤ 32) (j : Nat) :
    (bitRange buf lo hi).getLsbD j = (decide (j < hi - lo) && streamBit buf (hi - 1 - j)) := by
  obtain ⟨n, rfl⟩ := Nat.exists_eq_add_of_le hle
  rw [Nat.add_sub_cancel_left] at h32 ⊢
  rw [getLsbD_bitRange_add buf lo h32]
  by_cases hj : j < n
  · exact congrArg (fun k => decide (j < n) && streamBit buf k) (by omega)
  · rw [decide_eq_false hj, Bool.false_and, Bool.false_and]

/-- A range is a number of as many bits as it has stream bits. -/
theorem bitRange_toNat_lt (buf : List Byte) {lo hi : Nat} (hle : lo ≤ hi) (h32 : hi - lo ≤ 32) :
    (bitRange buf lo hi).toNat < 2 ^ (hi - lo) := by
  refine Nat.lt_pow_two_of_testBit _ fun j hj => ?_
  rw [BitVec.testBit_toNat, getLsbD_bitRange buf hle h32, decide_eq_false (Nat.not_lt.2 hj), Bool.false_and]

theorem toBytes_getD (xs : List Nat) (i : Nat) : (toBytes xs).getD i 0 = BitVec.ofNat 8 (xs.getD i 0) :=
  List.getD_map xs 0 (BitVec.ofNat 8)

theorem streamBit_toBytes (xs : List Nat) (k : Nat) :
    streamBit (toBytes xs) k = (xs.getD (k / 8) 0).testBit (7 - k % 8) := by
  rw [streamBit, toBytes_getD, BitVec.getLsbD_ofNat, decide_eq_true (by omega), Bool.true_and]

/-! ## XBITS -/

theorem extractBits_ok {buf : List Byte} {lo hi : Nat} (hlt : lo < hi) (h32 : hi - lo ≤ 32)
    (hfits : hi ≤ 8 * buf.length) : extractBits buf lo hi = .ok (bitRange buf lo hi) := by
  rw [extractBits, xbitsMax, if_neg (by omega), if_neg (by omega)]

theorem extractBits_of_bad_span {buf : List Byte} {lo hi : Nat} (h : hi ≤ lo ∨ 32 < hi - lo) :
    extractBits buf lo hi = .error ⟨.badSpan, [lo, hi]⟩ := by
  rw [extractBits, xbitsMax, if_pos (by omega)]

theorem extractBits_of_short {buf : List Byte} {lo hi : Nat} (hlt : lo < hi) (h32 : hi - lo ≤ 32)
    (h : 8 * buf.length < hi) : extractBits buf lo hi = .error ⟨.outOfRangeBit, [hi, 8 * buf.length]⟩ := by
  rw [extractBits, xbitsMax, if_neg (by omega), if_pos h]

/-- Settles O26: the span is looked at before the buffer's end. -/
theorem xbitsReadsStreamBits : Obligations.XbitsReadsStreamBits := by
  unfold Obligations.XbitsReadsStreamBits
  refine fun s buf lo hi hl hb =>
    ⟨fun hlt h32 hfits => ⟨bitRange (toBytes buf) lo hi, fun j => ?_, command_reply hl ?_⟩,
    fun hbad => command_raise hl (f := ⟨.badSpan, [lo, hi]⟩) ?_,
    fun hlt h32 hshort => command_raise hl (f := ⟨.outOfRangeBit, [hi, 8 * buf.length]⟩) ?_⟩
  · rw [getLsbD_bitRange _ hlt.le h32, streamBit_toBytes]
  · rw [checkBytes_ok hb, after_ok, extractBits_ok hlt h32 (by rwa [toBytes_length]), map_ok]
  · rw [checkBytes_ok hb, after_ok, extractBits_of_bad_span hbad, map_error]
  · rw [checkBytes_ok hb, after_ok, extractBits_of_short hlt h32 (by rwa [toBytes_length]), map_error, toBytes_length]

/-! ## DFCHECK -/

/-- The downlink format is the top five bits of byte 0. -/
theorem bitRange_zero_five_toNat (f : List Byte) : (bitRange f 0 5).toNat = (f.getD 0 0).toNat / 8 := by
  have hbits : bitRange f 0 5 = (f.getD 0 0 >>> 3).setWidth 32 := by
    refine BitVec.eq_of_getLsbD_eq fun j hj => ?_
    rw [getLsbD_bitRange f (by decide) (by decide), BitVec.getLsbD_setWidth, decide_eq_true hj, Bool.true_and,
      BitVec.getLsbD_ushiftRight]
    by_cases h5 : j < 5
    · have hbyte : (5 - 1 - j) / 8 = 0 := by omega
      rw [decide_eq_true h5, Bool.true_and, streamBit, hbyte]
      exact congrArg (f.getD 0 0).getLsbD (by omega)
    · rw [decide_eq_false h5, Bool.false_and, BitVec.getLsbD_of_ge _ _ (by omega)]
  have hbyte := (f.getD 0 0).isLt
  rw [hbits, BitVec.toNat_setWidth, BitVec.toNat_ushiftRight, Nat.shiftRight_eq_div_pow]
  omega

theorem bitRange_eq_dfEs_iff (f : List Byte) :
    bitRange f 0 5 = dfEs ↔ 0x88 ≤ (f.getD 0 0).toNat ∧ (f.getD 0 0).toNat ≤ 0x8F := by
  rw [← BitVec.toNat_inj, bitRange_zero_five_toNat]
  change _ = 17 ↔ _
  omega

theorem toBytes_getD_toNat {xs : List Nat} (h : ∀ b ∈ xs, b < 256) (i : Nat) :
    ((toBytes xs).getD i 0).toNat = xs.getD i 0 := by
  rw [toBytes_getD, BitVec.toNat_ofNat, Nat.mod_eq_of_lt]
  by_cases hi : i < xs.length
  · rw [List.getD_eq_getElem _ _ hi]
    exact h _ (List.getElem_mem hi)
  · rw [List.getD_eq_default _ _ (Nat.le_of_not_lt hi)]
    decide

theorem dfCheck_of_length {frame : List Byte} (h : frame.length ≠ 14) :
    dfCheck frame = .error ⟨.frameLength, [frame.length]⟩ := if_pos h

/-- Settles O27: the downlink format is byte 0 divided by 8. -/
theorem dfcheckTestsFirstByte : Obligations.DfcheckTestsFirstByte := by
  unfold Obligations.DfcheckTestsFirstByte
  refine fun s frame hl hb => ⟨fun hlen => command_reply hl ?_,
    fun hlen => command_raise hl (f := ⟨.frameLength, [frame.length]⟩) ?_⟩
  · have hdf := bitRange_eq_dfEs_iff (toBytes frame)
    rw [toBytes_getD_toNat hb] at hdf
    rw [checkBytes_ok hb, after_ok, dfCheck_ok (by rwa [toBytes_length]), map_ok, decide_eq_decide.2 hdf]
  · rw [checkBytes_ok hb, after_ok, dfCheck_of_length (by rwa [toBytes_length]), map_error, toBytes_length]

/-! ## DECODE -/

/-- Bit `j` of a packet field is the stream bit `j` places before the end of the field's range (10_state.md R74). -/
theorem getLsbD_field (frame : List Nat) {lo hi w : Nat} (hle : lo ≤ hi) (hw : hi - lo = w) (h32 : w ≤ 32) (j : Nat)
    (hj : j < w) : ((bitRange (toBytes frame) lo hi).setWidth w).getLsbD j =
      (frame.getD ((hi - 1 - j) / 8) 0).testBit (7 - (hi - 1 - j) % 8) := by
  subst hw
  rw [BitVec.getLsbD_setWidth, getLsbD_bitRange _ hle h32, decide_eq_true hj, Bool.true_and, Bool.true_and,
    streamBit_toBytes]

theorem decodeFrame_of_length {frame : List Byte} (h : frame.length ≠ 14) :
    decodeFrame frame = .error ⟨.frameLength, [frame.length]⟩ := if_pos h

/-- Settles O28: every field is a range of at most 24 stream bits. -/
theorem decodeReadsFieldLayout : Obligations.DecodeReadsFieldLayout := by
  unfold Obligations.DecodeReadsFieldLayout
  refine fun s frame hl hb => ⟨fun hlen => ⟨packetOf (toBytes frame), ?_⟩,
    fun hlen => command_raise hl (f := ⟨.frameLength, [frame.length]⟩) ?_⟩
  · have hfield {lo hi w : Nat} (hle : lo ≤ hi) (hw : hi - lo = w) (h32 : w ≤ 32) := getLsbD_field frame hle hw h32
    refine ⟨hfield (by decide) rfl (by decide), hfield (by decide) rfl (by decide), hfield (by decide) rfl (by decide),
      hfield (by decide) rfl (by decide), hfield (by decide) rfl (by decide), hfield (by decide) rfl (by decide),
      hfield (by decide) rfl (by decide), hfield (by decide) rfl (by decide), hfield (by decide) rfl (by decide),
      command_reply hl ?_⟩
    rw [checkBytes_ok hb, after_ok, decodeFrame_ok (by rwa [toBytes_length]), map_ok]
  · rw [checkBytes_ok hb, after_ok, decodeFrame_of_length (by rwa [toBytes_length]), map_error, toBytes_length]

/-! ## The ICAO address -/

/-- The address is the three bytes one after another, first byte most significant (20_memory.md R107). -/
theorem icaoAddress_eq_append (f : List Byte) :
    (packetOf f).icaoAddress = (f.getD 1 0 ++ f.getD 2 0 : BitVec 16) ++ f.getD 3 0 := by
  refine BitVec.eq_of_getLsbD_eq fun j hj => ?_
  have hfield : (packetOf f).icaoAddress.getLsbD j = streamBit f (31 - j) := by
    change ((bitRange f 8 32).setWidth 24).getLsbD j = _
    rw [BitVec.getLsbD_setWidth, getLsbD_bitRange f (by decide) (by decide), decide_eq_true hj, Bool.true_and]
    exact Bool.true_and _
  rw [hfield, streamBit, BitVec.getLsbD_append, BitVec.getLsbD_append]
  split
  · rw [show (31 - j) / 8 = 3 by omega]
    exact congrArg (f.getD 3 0).getLsbD (by omega)
  · split
    · rw [show (31 - j) / 8 = 2 by omega]
      exact congrArg (f.getD 2 0).getLsbD (by omega)
    · rw [show (31 - j) / 8 = 1 by omega]
      exact congrArg (f.getD 1 0).getLsbD (by omega)

theorem toNat_append_byte {w : Nat} (x : BitVec w) (b : Byte) : (x ++ b).toNat = x.toNat * 2 ^ 8 + b.toNat := by
  rw [BitVec.toNat_append, Nat.shiftLeft_eq, Nat.mul_comm, Nat.two_pow_add_eq_or_of_lt b.isLt]

/-- Settles O29: the address is the append of the three bytes, and no bit of the range is lost in it. -/
theorem icaoAddressIsBigEndian : Obligations.IcaoAddressIsBigEndian := by
  unfold Obligations.IcaoAddressIsBigEndian
  refine fun f _ => ⟨?_, ?_⟩
  · rw [icaoAddress_eq_append, toNat_append_byte, toNat_append_byte]
    ring
  · exact (BitVec.toNat_setWidth ..).trans (Nat.mod_eq_of_lt (bitRange_toNat_lt f (by decide) (by decide)))

end Sys2Proof.Machine
end

section
/-! The scan datapath (47_pipeline.md R420 to R424): one candidate gives `candidatePacket`, and a scan those of its
offsets in order. -/

namespace Sys2Proof.Machine

/-! ## One candidate -/

theorem downlinkFormat_eq_iff (f : List Byte) : (packetOf f).downlinkFormat = 17 ↔ bitRange f 0 5 = dfEs := by
  refine ⟨fun h => ?_, packetOf_downlinkFormat⟩
  have hlt : (bitRange f 0 5).toNat < 32 := bitRange_toNat_lt f (by decide) (by decide)
  have h17 : (bitRange f 0 5).toNat % 2 ^ 5 = 17 := (BitVec.toNat_setWidth ..).symm.trans (congrArg BitVec.toNat h)
  refine BitVec.eq_of_toNat_eq (?_ : _ = 17)
  omega

/-- The packet of the candidate at offset `i`: that of the frame after a matching preamble, when its downlink format is
17 and its remainder is 0 (47_pipeline.md R420). -/
def candidatePacket (vd : VarDiv) (mb : List Nat) (st : Stats) (i : Nat) : Option Packet :=
  if matchBit vd mb st i = true ∧ (packetOf (walkFrame mb (i + 16) 224)).downlinkFormat = 17 ∧
      crcRem (walkFrame mb (i + 16) 224) = 0
  then some (packetOf (walkFrame mb (i + 16) 224)) else none

theorem candidatePacket_of_match {vd : VarDiv} {mb : List Nat} {st : Stats} {i : Nat} (h : matchBit vd mb st i = true) :
    candidatePacket vd mb st i =
      if (packetOf (walkFrame mb (i + 16) 224)).downlinkFormat = 17 ∧ crcRem (walkFrame mb (i + 16) 224) = 0
      then some (packetOf (walkFrame mb (i + 16) 224)) else none := by
  simp only [candidatePacket, h, true_and]

theorem candidatePacket_of_no_match {vd : VarDiv} {mb : List Nat} {st : Stats} {i : Nat}
    (h : matchBit vd mb st i = false) : candidatePacket vd mb st i = none := by
  simp only [candidatePacket, h, Bool.false_eq_true, false_and, if_false]

/-- Only packets of downlink format 17 come out (45_bitfield_decoder.md R352). -/
theorem downlinkFormat_of_candidatePacket {vd : VarDiv} {mb : List Nat} {st : Stats} {i : Nat} {p : Packet}
    (h : candidatePacket vd mb st i = some p) : p.downlinkFormat = 17 := by
  unfold candidatePacket at h
  split at h
  next hvalid =>
    cases h
    exact hvalid.2.1
  next => cases h

theorem scanStep_eq_ok {vd : VarDiv} {mb : List Nat} {st : Stats} {i : Nat} (hw : i + 240 ≤ mb.length)
    (hs : checkStats vd st = .ok ()) : scanStep vd mb st i = .ok (matchBit vd mb st i, candidatePacket vd mb st i) := by
  rw [scanStep_ok hw hs]
  cases hm : matchBit vd mb st i with
  | true =>
    simp only [candidatePacket_of_match hm, downlinkFormat_eq_iff]
    rfl
  | false => simp only [candidatePacket_of_no_match hm, Bool.false_eq_true, if_false]

theorem scanStep_of_short {vd : VarDiv} {mb : List Nat} {st : Stats} {i : Nat} (h : mb.length < i + 240) :
    scanStep vd mb st i = .error ⟨.outOfRangeSample, [i + 239, mb.length]⟩ := if_pos h

theorem scanStep_of_bad_stats {vd : VarDiv} {mb : List Nat} {st : Stats} {i : Nat} (hw : i + 240 ≤ mb.length)
    (hs : checkStats vd st ≠ .ok ()) : scanStep vd mb st i = .error ⟨.badStats, [st.n]⟩ := by
  rw [scanStep, if_neg (Nat.not_lt.2 hw : ¬ mb.length < i + winLen), preamble_of_bad_stats (by omega) hs]
  rfl

theorem Units.afterScanStep_of_match (u : Units) {vd : VarDiv} {mb : List Nat} {st : Stats} {i : Nat}
    (hw : i + 16 ≤ mb.length) (hs : checkStats vd st = .ok ()) (hm : matchBit vd mb st i = true) :
    u.afterScanStep vd mb st i =
      { u with frame := walkFrame mb (i + 16) 224, crcReg := crcRem (walkFrame mb (i + 16) 224) } := by
  rw [Units.afterScanStep, preamble_eq_ok.2 ⟨hw, hs, hm.symm⟩]
  rfl

theorem Units.afterScanStep_of_no_match (u : Units) {vd : VarDiv} {mb : List Nat} {st : Stats} {i : Nat}
    (hw : i + 16 ≤ mb.length) (hs : checkStats vd st = .ok ()) (hm : matchBit vd mb st i = false) :
    u.afterScanStep vd mb st i = u := by
  rw [Units.afterScanStep, preamble_eq_ok.2 ⟨hw, hs, hm.symm⟩]

/-- Settles O35: the window is looked at first, then the statistics, then the match. -/
theorem scanstepAcceptsValidFrames : Obligations.ScanstepAcceptsValidFrames := by
  unfold Obligations.ScanstepAcceptsValidFrames
  refine fun s mb st i hl hmb => ⟨fun hw hs hm => command_reply hl ?_, ?_,
    fun hshort => command_raise hl (f := ⟨.outOfRangeSample, [i + 239, mb.length]⟩) ?_,
    fun hw hs => command_raise hl (f := ⟨.badStats, [st.n]⟩) ?_⟩
  · rw [checkBuffer_ok hmb, after_ok, scanStep_eq_ok hw hs, map_ok, Units.afterScanStep_of_no_match _ (by omega) hs hm,
      hm, candidatePacket_of_no_match hm]
  · rintro hw hs hm f rfl
    refine command_reply_units hl ?_
    rw [checkBuffer_ok hmb, after_ok, scanStep_eq_ok hw hs, map_ok, Units.afterScanStep_of_match _ (by omega) hs hm,
      hm, candidatePacket_of_match hm]
  · rw [checkBuffer_ok hmb, after_ok, scanStep_of_short hshort, map_error]
  · rw [checkBuffer_ok hmb, after_ok, scanStep_of_bad_stats hw hs, map_error]

/-! ## The scan -/

/-- The rounds of a scan that fits give the packets of their offsets in increasing order (47_pipeline.md R422). -/
theorem scanFrom_eq_ok {vd : VarDiv} {mb : List Nat} {st : Stats} (hs : checkStats vd st = .ok ()) {rounds i : Nat}
    (hw : rounds = 0 ∨ i + rounds + 239 ≤ mb.length) :
    scanFrom vd mb st rounds i = .ok ((List.range' i rounds).filterMap (candidatePacket vd mb st)) := by
  induction rounds generalizing i with
  | zero => rfl
  | succ n ih =>
    rw [scanFrom_succ_of_ok (scanStep_eq_ok (by omega) hs) (ih (by omega)), List.range'_succ, List.filterMap_cons]
    cases candidatePacket vd mb st i <;> rfl

theorem scanBuffer_of_short {vd : VarDiv} {mb : List Nat} (h : mb.length < 240) : scanBuffer vd mb = .ok [] := if_pos h

theorem scanBuffer_of_long {vd : VarDiv} {mb : List Nat} (h : 240 ≤ mb.length) :
    scanBuffer vd mb = scanFrom vd mb (statsOf mb) (mb.length - 239) 0 := by
  have hrounds : mb.length - winLen + 1 = mb.length - 239 := by
    rw [winLen, preLen, payLen]
    omega
  rw [scanBuffer, if_neg (Nat.not_lt.2 h : ¬ mb.length < winLen), bufferStats_ok (by omega), hrounds]
  simp only [bind, Except.bind]

/-- A scan never raises (47_pipeline.md R424), and a short buffer has no offset to test. -/
theorem scanBuffer_eq_ok (vd : VarDiv) (mb : List Nat) :
    scanBuffer vd mb = .ok ((List.range (mb.length - 239)).filterMap (candidatePacket vd mb (statsOf mb))) := by
  by_cases h : mb.length < 240
  · rw [scanBuffer_of_short h, Nat.sub_eq_zero_of_le (by omega)]
    rfl
  · rw [scanBuffer_of_long (by omega), scanFrom_eq_ok (checkStats_statsOf (by omega)) (by omega), List.range_eq_range']

/-- Settles O36: the packets are those of the offsets that fit. -/
theorem scanTestsEveryOffset : Obligations.ScanTestsEveryOffset := by
  unfold Obligations.ScanTestsEveryOffset
  refine fun s mb hl hmb => command_reply_units hl ?_
  rw [checkBuffer_ok hmb, after_ok, scanBuffer_eq_ok, map_ok, statsOf_eq_pow]
  rfl

end Sys2Proof.Machine
end

section
/-! The FIFO's transactions, the agents' steps, the coordinator and the host moves (46_fifo.md, 47_pipeline.md): one
equation per case of each, in the named updates of the state. -/

namespace Sys2Proof.Machine

/-! ## The configuration (70_reset_and_hazards.md R524) -/

theorem params_one_le_k (cfg : Params) : 1 ≤ cfg.k := by
  have hok := cfg.ok
  simp only [paramsOk, Bool.and_eq_true, decide_eq_true_eq] at hok
  exact hok.1.1.1

theorem params_blockBytes_mod_four (cfg : Params) : cfg.blockBytes % 4 = 0 := by
  have hok := cfg.ok
  simp only [paramsOk, Bool.and_eq_true, decide_eq_true_eq] at hok
  exact hok.1.1.2

theorem params_acqExitCode_ne_zero (cfg : Params) : cfg.acqExitCode ≠ 0 := by
  have hok := cfg.ok
  simp only [paramsOk, Bool.and_eq_true, decide_eq_true_eq] at hok
  exact hok.2

/-! ## Updates that change nothing -/

theorem State.setCs_self {s : State} {v : ConsState} (h : s.sys.cs = v) : s.setCs v = s := by
  subst h
  rfl

theorem State.setCancel_self {s : State} {v : Bool} (h : s.sys.cancel = v) : s.setCancel v = s := by
  subst h
  rfl

theorem State.emitOption_eq (s : State) (p : Option Packet) : s.emitOption p = s.setOut (s.sys.out ++ p.toList) := by
  cases p with
  | none => rw [Option.toList_none, List.append_nil]; rfl
  | some p => rfl

/-! ## PUSH, POP and FIFOSTAT -/

section Transactions

variable {s : State} (hl : Live s)
include hl

theorem exec_push_of_misfit {e : Entry} {f : Raise} (h : checkEntry 0 e = .error f) :
    exec (.push e) s = .next (s.raise 0x30 f) := by
  change execPush e s = _
  rw [execPush, whenLive_of_live hl, h]

theorem exec_push_of_running {e : Entry} (he : e.wf = true) (hco : s.sys.co ≠ .idle) :
    exec (.push e) s = .next (s.raise 0x30 (busyRaise 0x30)) := by
  change execPush e s = _
  rw [execPush, whenLive_of_live hl, checkEntry_eq_ok.2 he]
  exact if_pos hco

theorem exec_push_of_occupied {e : Entry} (he : e.wf = true) (hco : s.sys.co = .idle) (hport : s.pushPort ≠ none) :
    exec (.push e) s = .refused .portOccupied := by
  change execPush e s = _
  rw [execPush, whenLive_of_live hl, checkEntry_eq_ok.2 he]
  exact (if_neg (not_not.2 hco)).trans (if_pos (Option.isSome_iff_ne_none.2 hport))

theorem exec_push_of_free {e : Entry} (he : e.wf = true) (hco : s.sys.co = .idle) (hport : s.pushPort = none) :
    exec (.push e) s =
      if s.sys.fifo.length < s.cfg.k then .next ((s.setFifo (s.sys.fifo ++ [e])).addReply 0x30 .done)
      else .next (s.setPushPort (some e)) := by
  change execPush e s = _
  rw [execPush, whenLive_of_live hl, checkEntry_eq_ok.2 he]
  refine (if_neg (not_not.2 hco)).trans ((if_neg (by rw [hport]; decide)).trans ?_)
  by_cases hroom : s.sys.fifo.length < s.cfg.k
  · simp only [fifoPush_eq_some.2 ⟨hroom, rfl⟩, if_pos hroom]
  · simp only [fifoPush_eq_none.2 (Nat.le_of_not_lt hroom), if_neg hroom]

theorem exec_pop_of_running (hco : s.sys.co ≠ .idle) : exec .pop s = .next (s.raise 0x31 (busyRaise 0x31)) := by
  change execPop s = _
  rw [execPop, whenLive_of_live hl, if_pos hco]

theorem exec_pop_of_occupied (hco : s.sys.co = .idle) (hport : s.popPort = true) :
    exec .pop s = .refused .portOccupied := by
  change execPop s = _
  rw [execPop, whenLive_of_live hl, if_neg (not_not.2 hco), if_pos hport]

theorem exec_pop_of_free (hco : s.sys.co = .idle) (hport : s.popPort = false) :
    exec .pop s =
      match s.sys.fifo with
      | [] => .next (s.setPopPort true)
      | e :: q => .next ((s.setFifo q).addReply 0x31 (.entry e)) := by
  change execPop s = _
  rw [execPop, whenLive_of_live hl, if_neg (not_not.2 hco), if_neg (by rw [hport]; decide)]
  cases s.sys.fifo <;> rfl

/-! ## The transaction waiting at a port -/

theorem fifoPortStep_of_running (hco : s.sys.co ≠ .idle) (p : FifoPort) : fifoPortStep p s = .next s :=
  (whenLive_of_live hl _).trans (if_pos hco)

theorem fifoPortStep_producer_of_none (hport : s.pushPort = none) : fifoPortStep .producer s = .next s := by
  rw [fifoPortStep, whenLive_of_live hl, hport]
  exact ite_self _

theorem fifoPortStep_producer_of_full (hfull : s.cfg.k ≤ s.sys.fifo.length) : fifoPortStep .producer s = .next s := by
  rw [fifoPortStep, whenLive_of_live hl]
  cases s.pushPort with
  | none => exact ite_self _
  | some e => simp only [fifoPush_eq_none.2 hfull, ite_self]

theorem fifoPortStep_producer_of_room {e : Entry} (hco : s.sys.co = .idle) (hport : s.pushPort = some e)
    (hroom : s.sys.fifo.length < s.cfg.k) :
    fifoPortStep .producer s =
      .next (((s.setPushPort none).setFifo (s.sys.fifo ++ [e])).addReply 0x30 .done) := by
  rw [fifoPortStep, whenLive_of_live hl, if_neg (not_not.2 hco), hport]
  simp only [fifoPush_eq_some.2 ⟨hroom, rfl⟩]

theorem fifoPortStep_consumer_of_none (hport : s.popPort = false) : fifoPortStep .consumer s = .next s := by
  rw [fifoPortStep, whenLive_of_live hl, hport]
  exact ite_self _

theorem fifoPortStep_consumer_of_empty (hempty : s.sys.fifo = []) : fifoPortStep .consumer s = .next s := by
  rw [fifoPortStep, whenLive_of_live hl, hempty]
  cases s.popPort <;> exact ite_self _

theorem fifoPortStep_consumer_of_entry {e : Entry} {q : List Entry} (hco : s.sys.co = .idle) (hport : s.popPort = true)
    (hq : s.sys.fifo = e :: q) :
    fifoPortStep .consumer s = .next (((s.setPopPort false).setFifo q).addReply 0x31 (.entry e)) := by
  rw [fifoPortStep, whenLive_of_live hl, if_neg (not_not.2 hco), hport, hq]
  rfl

/-! ## The producer -/

theorem exec_pPoll_of_poll (hps : s.sys.ps = .poll) :
    exec .pPoll s = .next (s.setPs (if s.sys.cancel then .stop else .read)) := by
  change execPPoll s = _
  rw [execPPoll, whenLive_of_live hl, hps]

theorem exec_pPush_of_room {e : Entry} (hps : s.sys.ps = .push e) (hroom : s.sys.fifo.length < s.cfg.k) :
    exec .pPush s = .next ((s.setFifo (s.sys.fifo ++ [e])).setPs .poll) := by
  change execPPush s = _
  rw [execPPush, whenLive_of_live hl, hps]
  simp only [fifoPush_eq_some.2 ⟨hroom, rfl⟩]

theorem exec_pEnd_of_room (hps : s.sys.ps = .stop) (hroom : s.sys.fifo.length < s.cfg.k) :
    exec .pEnd s = .next ((s.setFifo (s.sys.fifo ++ [.endMark])).setPs .done) := by
  change execPEnd s = _
  rw [execPEnd, whenLive_of_live hl, hps]
  simp only [fifoPush_eq_some.2 ⟨hroom, rfl⟩]

/-! ## The consumer -/

theorem exec_cPop_of_entry {e : Entry} {q : List Entry} (hcs : s.sys.cs = .pop) (hq : s.sys.fifo = e :: q) :
    exec .cPop s = finish 0x48 s (takeEntry e (s.setFifo q)) := by
  change execCPop s = _
  rw [execCPop, whenLive_of_live hl, hcs, hq]
  rfl

theorem exec_cPop_of_endMark {q : List Entry} (hcs : s.sys.cs = .pop) (hq : s.sys.fifo = .endMark :: q) :
    exec .cPop s = .next ((s.setFifo q).setCs .done) :=
  exec_cPop_of_entry hl hcs hq

theorem exec_cPop_of_short {mb : List Nat} {q : List Entry} (hcs : s.sys.cs = .pop) (hq : s.sys.fifo = .data mb :: q)
    (hshort : mb.length < 240) : exec .cPop s = .next (s.setFifo q) := by
  have htake : takeEntry (.data mb) (s.setFifo q) = .ok ((s.setFifo q).setCs .pop) := if_pos hshort
  have hself : (s.setFifo q).setCs .pop = s.setFifo q := State.setCs_self hcs
  rw [exec_cPop_of_entry hl hcs hq, htake, finish_ok, hself]

/-- The buffer is long enough for both divisors, so it has statistics. -/
theorem exec_cPop_of_long {mb : List Nat} {q : List Entry} (hcs : s.sys.cs = .pop) (hq : s.sys.fifo = .data mb :: q)
    (hlong : 240 ≤ mb.length) :
    exec .cPop s =
      .next (((s.setFifo q).setUnits (s.units.withStats (statsOf mb))).setCs (.scan mb (statsOf mb) 0)) := by
  rw [exec_cPop_of_entry hl hcs hq, takeEntry, if_neg (Nat.not_lt.2 hlong : ¬ mb.length < winLen),
    bufferStats_ok (by omega), map_ok, finish_ok]
  rfl

theorem exec_cScan_of_fits {mb : List Nat} {st : Stats} {i : Nat} (hcs : s.sys.cs = .scan mb st i)
    (hw : i + 240 ≤ mb.length) :
    exec .cScan s = finish 0x49 s ((scanStep s.cfg.varDiv mb st i).map fun r =>
      ((s.setUnits (s.units.afterScanStep s.cfg.varDiv mb st i)).setOut (s.sys.out ++ r.2.toList)).setCs
        (.scan mb st (i + 1))) := by
  change execCScan s = _
  rw [execCScan, whenLive_of_live hl, hcs]
  simp only [State.emitOption_eq]
  exact if_pos hw

theorem exec_cScan_of_end {mb : List Nat} {st : Stats} {i : Nat} (hcs : s.sys.cs = .scan mb st i)
    (hw : mb.length < i + 240) : exec .cScan s = .next (s.setCs .pop) := by
  change execCScan s = _
  rw [execCScan, whenLive_of_live hl, hcs]
  exact if_neg (Nat.not_le.2 hw)

/-! ## The coordinator -/

theorem exec_start_of_started (hco : s.sys.co ≠ .idle) : exec .start s = .refused .hostSecondStart := by
  change execStart s = _
  rw [execStart, whenLive_of_live hl, if_pos hco]

theorem exec_start_of_empty (hco : s.sys.co = .idle) (hq : s.sys.fifo = []) :
    exec .start s = .next (((s.setCo .waitP).setPs .poll).setCs .pop) := by
  change execStart s = _
  rw [execStart, whenLive_of_live hl, if_neg (not_not.2 hco), hq]

theorem exec_start_of_nonempty (hco : s.sys.co = .idle) (hq : s.sys.fifo ≠ []) :
    exec .start s = .next (s.raise 0x50 (busyRaise 0x50)) := by
  obtain ⟨e, q, hq⟩ := List.exists_cons_of_ne_nil hq
  change execStart s = _
  rw [execStart, whenLive_of_live hl, if_neg (not_not.2 hco), hq]

theorem exec_coJoinC_of_done (hco : s.sys.co = .waitC) (hcs : s.sys.cs = .done) :
    exec .coJoinC s = .next ((s.setStatus (some (if s.sys.acqErr then .acqError else .ok))).setCo .exited) := by
  change execCoJoinC s = _
  rw [execCoJoinC, whenLive_of_live hl, hco, hcs]

/-! ## The host moves -/

theorem exec_hSrcOk_of_read {blk : List Nat} (hps : s.sys.ps = .read) (hlen : blk.length = s.cfg.blockBytes) :
    exec (.hSrcOk blk) s = finish 0x58 s ((magBlock s.cfg.c blk).map fun mb => s.setPs (.push (.data mb))) := by
  change execHSrcOk blk s = _
  rw [execHSrcOk, whenLive_of_live hl, if_pos (readRequested_eq_true_iff.2 hps), if_pos hlen]

theorem exec_hCancel_of_live : exec .hCancel s = .next (s.setCancel true) := whenLive_of_live hl _

end Transactions

/-! ## The statements about the FIFO -/

/-- Settles O30: BUSY comes first, then the occupied port, then the room. -/
theorem pushAppendsOrWaits : Obligations.PushAppendsOrWaits := by
  unfold Obligations.PushAppendsOrWaits
  refine fun s e hl he => ⟨fun hco hport hroom => ?_, fun hco hport hfull => ?_, exec_push_of_occupied hl he,
    fun hco => ?_⟩
  · rw [exec_push_of_free hl he hco hport, if_pos hroom]
    rfl
  · rw [exec_push_of_free hl he hco hport, if_neg (Nat.not_lt.2 hfull)]
    rfl
  · rw [exec_push_of_running hl he hco, State.raise_of_live hl]
    rfl

/-- Settles O31: BUSY comes first, then the occupied port, then the oldest entry. -/
theorem popRemovesOldestOrWaits : Obligations.PopRemovesOldestOrWaits := by
  unfold Obligations.PopRemovesOldestOrWaits
  refine fun s hl => ⟨fun e q hco hport hq => ?_, fun hco hport hq => ?_, exec_pop_of_occupied hl, fun hco => ?_⟩
  · rw [exec_pop_of_free hl hco hport, hq]
    rfl
  · rw [exec_pop_of_free hl hco hport, hq]
    rfl
  · rw [exec_pop_of_running hl hco, State.raise_of_live hl]
    rfl

/-- Settles O32: the port's step is enabled while the pipeline is idle and the FIFO has room, or an entry. -/
theorem waitingTransactionCompletes : Obligations.WaitingTransactionCompletes := by
  unfold Obligations.WaitingTransactionCompletes
  refine fun s rest hl => ⟨fun e hs hco hport hroom => ?_, fun e q hs hco hport hq => ?_, fun hs hwait => ?_,
    fun hs hwait => ?_⟩
  · rw [step_cons hs, takeEvent_port]
    exact fifoPortStep_producer_of_room (s := s.setSched rest) hl hco hport hroom
  · rw [step_cons hs, takeEvent_port]
    exact fifoPortStep_consumer_of_entry (s := s.setSched rest) hl hco hport hq
  · rw [step_cons hs, takeEvent_port]
    rcases hwait with hco | hport | hfull
    · exact fifoPortStep_of_running (s := s.setSched rest) hl hco _
    · exact fifoPortStep_producer_of_none (s := s.setSched rest) hl hport
    · exact fifoPortStep_producer_of_full (s := s.setSched rest) hl hfull
  · rw [step_cons hs, takeEvent_port]
    rcases hwait with hco | hport | hempty
    · exact fifoPortStep_of_running (s := s.setSched rest) hl hco _
    · exact fifoPortStep_consumer_of_none (s := s.setSched rest) hl hport
    · exact fifoPortStep_consumer_of_empty (s := s.setSched rest) hl hempty

/-- Settles O33: the two flags are comparisons of the number of entries. -/
theorem fifostatReadsOccupancy : Obligations.FifostatReadsOccupancy := by
  unfold Obligations.FifostatReadsOccupancy
  exact fun s hl => command_reply hl rfl

/-! ## The statements about the pipeline's steps -/

/-- Settles O37: an empty FIFO starts both sides. -/
theorem startStartsBothSides : Obligations.StartStartsBothSides := by
  unfold Obligations.StartStartsBothSides
  refine fun s hl hco => ⟨exec_start_of_empty hl hco, fun hq => ?_⟩
  rw [exec_start_of_nonempty hl hco hq, State.raise_of_live hl]
  rfl

/-- Settles O38: the poll reads cancellation. -/
theorem pPollReadsCancellation : Obligations.PPollReadsCancellation := by
  unfold Obligations.PPollReadsCancellation
  refine fun s hl hps => ⟨fun hc => ?_, fun hc => ?_⟩
  · rw [exec_pPoll_of_poll hl hps, hc]
    rfl
  · rw [exec_pPoll_of_poll hl hps, hc]
    rfl

theorem exec_hSrcOk_of_bytes {s : State} {blk : List Nat} (hl : Live s) (hps : s.sys.ps = .read)
    (hlen : blk.length = s.cfg.blockBytes) (hb : ∀ b ∈ blk, b < 256) :
    exec (.hSrcOk blk) s = .next (s.setPs (.push (.data (pairMagnitudes s.cfg.c blk)))) := by
  have heven : blk.length % 2 = 0 := by
    have := params_blockBytes_mod_four s.cfg
    omega
  rw [exec_hSrcOk_of_read hl hps hlen, magBlock_ok (seqBelow_iff.2 hb) heven, map_ok, finish_ok]

/-- Settles O39: a block's length is even, so its magnitudes are those MAGBLK gives. -/
theorem hSrcOkHoldsMagnitudes : Obligations.HSrcOkHoldsMagnitudes := by
  unfold Obligations.HSrcOkHoldsMagnitudes
  intro s blk hl hps hlen hb
  obtain ⟨hmb, hget⟩ := pairMagnitudes_spec s.cfg.c blk
  refine ⟨_, ?_, hget, exec_hSrcOk_of_bytes hl hps hlen hb⟩
  have := params_blockBytes_mod_four s.cfg
  omega

/-- Settles O44: well-formed statistics in a window that fits raise nothing. -/
theorem cScanTestsOneCandidate : Obligations.CScanTestsOneCandidate := by
  unfold Obligations.CScanTestsOneCandidate
  refine fun s mb st i hl hcs => ⟨fun hw hs => ⟨_, _, scanStep_eq_ok hw hs, ?_⟩, exec_cScan_of_end hl hcs⟩
  rw [exec_cScan_of_fits hl hcs hw, scanStep_eq_ok hw hs]
  rfl

/-- Settles O46: the status is read off the acquisition error. -/
theorem coJoinCWritesStatus : Obligations.CoJoinCWritesStatus := by
  unfold Obligations.CoJoinCWritesStatus
  refine fun s hl hco hcs => ⟨fun he => ⟨_, exec_coJoinC_of_done hl hco hcs, ?_⟩,
    fun he => ⟨_, exec_coJoinC_of_done hl hco hcs, ?_⟩⟩
  · rw [he]
    exact ⟨rfl, rfl, params_acqExitCode_ne_zero s.cfg⟩
  · rw [he]
    exact ⟨rfl, rfl⟩

/-- Settles O47: cancellation raised again is the same state. -/
theorem hCancelRaisesCancellation : Obligations.HCancelRaisesCancellation := by
  unfold Obligations.HCancelRaisesCancellation
  refine fun s hl => ⟨exec_hCancel_of_live hl, fun hc => ?_⟩
  rw [exec_hCancel_of_live hl, State.setCancel_self hc]

/-! ## A step that is not enabled -/

/-- A step that is not enabled leaves a live state; a faulted one stands still anyway. -/
theorem whenLive_eq_next {s : State} {r : Out} (h : Live s → r = .next s) : whenLive s r = .next s := by
  unfold whenLive
  split
  next hl => exact h hl
  next => rfl

theorem exec_pPoll_waits {s : State} (h : ¬ agentEnabled .pPoll s) : exec .pPoll s = .next s :=
  whenLive_eq_next fun hl => by
    split
    next hps => exact absurd ⟨hl, hps⟩ h
    next => rfl

theorem exec_pPush_waits {s : State} (h : ¬ agentEnabled .pPush s) : exec .pPush s = .next s :=
  whenLive_eq_next fun hl => by
    split
    next e hps =>
      have hfull : s.cfg.k ≤ s.sys.fifo.length := Nat.le_of_not_lt fun hroom => h ⟨hl, ⟨e, hps⟩, hroom⟩
      rw [fifoPush_eq_none.2 hfull]
    next => rfl

theorem exec_pEnd_waits {s : State} (h : ¬ agentEnabled .pEnd s) : exec .pEnd s = .next s :=
  whenLive_eq_next fun hl => by
    split
    next hps =>
      have hfull : s.cfg.k ≤ s.sys.fifo.length := Nat.le_of_not_lt fun hroom => h ⟨hl, hps, hroom⟩
      rw [fifoPush_eq_none.2 hfull]
    next => rfl

theorem exec_cPop_waits {s : State} (h : ¬ agentEnabled .cPop s) : exec .cPop s = .next s :=
  whenLive_eq_next fun hl => by
    split
    next hcs =>
      have hempty : s.sys.fifo = [] :=
        List.eq_nil_of_length_eq_zero (Nat.eq_zero_of_not_pos fun hpos => h ⟨hl, hcs, hpos⟩)
      rw [fifoPop_eq_none.2 hempty]
    next => rfl

theorem exec_cScan_waits {s : State} (h : ¬ agentEnabled .cScan s) : exec .cScan s = .next s :=
  whenLive_eq_next fun hl => by
    split
    next mb st i hcs => exact absurd ⟨hl, mb, st, i, hcs⟩ h
    next => rfl

theorem exec_coJoinP_waits {s : State} (h : ¬ agentEnabled .coJoinP s) : exec .coJoinP s = .next s :=
  whenLive_eq_next fun hl => by
    split
    next hco hps => exact absurd ⟨hl, hco, hps⟩ h
    next => rfl

theorem exec_coJoinC_waits {s : State} (h : ¬ agentEnabled .coJoinC s) : exec .coJoinC s = .next s :=
  whenLive_eq_next fun hl => by
    split
    next hco hcs => exact absurd ⟨hl, hco, hcs⟩ h
    next => rfl

/-- Settles O48: one lemma for each of the seven steps. -/
theorem disabledAgentStepWaits : Obligations.DisabledAgentStepWaits := by
  unfold Obligations.DisabledAgentStepWaits
  intro i s hi hdis
  simp only [agentSteps, List.mem_cons, List.not_mem_nil, or_false] at hi
  rcases hi with rfl | rfl | rfl | rfl | rfl | rfl | rfl
  · exact exec_pPoll_waits hdis
  · exact exec_pPush_waits hdis
  · exact exec_pEnd_waits hdis
  · exact exec_cPop_waits hdis
  · exact exec_cScan_waits hdis
  · exact exec_coJoinP_waits hdis
  · exact exec_coJoinC_waits hdis

/-! ## Steps that may be blocked -/

/-- Settles O41: a full FIFO disables the step. -/
theorem pPushAppendsHeldEntry : Obligations.PPushAppendsHeldEntry := by
  unfold Obligations.PPushAppendsHeldEntry
  refine ⟨rfl, fun s e hl hps => ⟨exec_pPush_of_room hl hps, fun hfull => exec_pPush_waits ?_⟩⟩
  rintro ⟨_, _, hroom⟩
  exact hroom.not_ge hfull

/-- Settles O42: a full FIFO disables the step. -/
theorem pEndAppendsEnd : Obligations.PEndAppendsEnd := by
  unfold Obligations.PEndAppendsEnd
  refine fun s hl hps => ⟨exec_pEnd_of_room hl hps, fun hfull => exec_pEnd_waits ?_⟩
  rintro ⟨_, _, hroom⟩
  exact hroom.not_ge hfull

/-- Settles O43: what is done with the entry depends on its kind and its length; an empty FIFO disables the step. -/
theorem cPopTakesOldestEntry : Obligations.CPopTakesOldestEntry := by
  unfold Obligations.CPopTakesOldestEntry
  refine fun s hl hcs => ⟨fun q hq => exec_cPop_of_endMark hl hcs hq,
    fun mb q hq hshort => exec_cPop_of_short hl hcs hq hshort, fun mb q hq hlong => ?_,
    fun hempty => exec_cPop_waits ?_⟩
  · rw [exec_cPop_of_long hl hcs hq hlong, statsOf_eq_pow]
    rfl
  · rintro ⟨_, _, hpos⟩
    rw [hempty] at hpos
    exact Nat.not_lt_zero 0 hpos

end Sys2Proof.Machine
end

section
/-! BAD_OPERAND and the other raises of the command port (30_encoding.md R156, R159; 60_exceptions.md R474, R475, R479).
Every command over the datapath is the check of its fields followed by an answer that never raises BAD_OPERAND and
reads the configuration alone. -/

namespace Sys2Proof.Machine

/-! ## The first misfit -/

/-- A field of another kind raises the value `fieldValue` gives it. -/
theorem checkField_of_wrong_kind {pos : Nat} {t : OperandType} {f : Field} (h : fieldHasKind t f = false) :
    checkField pos t f = .error (badOperand pos (fieldValue f)) := by
  cases t <;> cases f
  all_goals first | rfl | cases h

/-- A field of the right kind is the sequence of the values its width bounds. -/
theorem checkField_of_width {pos w : Nat} {t : OperandType} {f : Field} (h : fieldHasKind t f = true)
    (hw : typeWidth t = some w) : checkField pos t f = checkSeq w pos (boundedValues f) := by
  cases t with
  | nat => cases hw
  | stats => cases hw
  | u w => cases hw; cases f <;> first | rfl | cases h
  | seqOf w => cases hw; cases f <;> first | rfl | cases h
  | entry =>
    cases hw
    cases f with
    | entry e => cases e <;> rfl
    | num n => cases h
    | seq xs => cases h
    | stats st => cases h

theorem checkField_of_no_width {pos : Nat} {t : OperandType} {f : Field} (h : fieldHasKind t f = true)
    (hw : typeWidth t = none) : checkField pos t f = .ok () := by
  cases t <;> cases hw <;> cases f <;> first | rfl | cases h

theorem fieldFits_of_checkField {pos : Nat} {t : OperandType} {f : Field} (h : checkField pos t f = .ok ()) :
    FieldFits t f := by
  have hkind : fieldHasKind t f = true := by
    by_contra hn
    rw [checkField_of_wrong_kind (Bool.eq_false_of_not_eq_true hn)] at h
    cases h
  refine ⟨hkind, fun w hw => ?_⟩
  rw [checkField_of_width hkind hw, checkSeq_eq_ok] at h
  exact seqBelow_iff.1 h

/-- The raise of a field: its position, and the value `FirstMisfit` asks for. -/
theorem checkField_eq_error {pos : Nat} {t : OperandType} {f : Field} {r : Raise} (h : checkField pos t f = .error r) :
    ∃ v, r = badOperand pos v ∧ FirstMisfit [t] [f] 0 v := by
  have hnone : ∀ p < 0, ∃ t' f', [t][p]? = some t' ∧ [f][p]? = some f' ∧ FieldFits t' f' :=
    fun p hp => absurd hp (Nat.not_lt_zero p)
  by_cases hkind : fieldHasKind t f = true
  · cases hw : typeWidth t with
    | none => rw [checkField_of_no_width hkind hw] at h; cases h
    | some w =>
      rw [checkField_of_width hkind hw] at h
      have hout : seqBelow w (boundedValues f) = false := by
        by_contra hn
        rw [checkSeq_of_seqBelow (Bool.eq_true_of_not_eq_false hn)] at h
        cases h
      obtain ⟨pre, v, post, hvals, hpre, hv, hraise⟩ := checkSeq_of_not_seqBelow (pos := pos) hout
      rw [hraise] at h
      cases h
      exact ⟨v, rfl, hnone, fun _ => ⟨w, pre, post, hw, hvals, seqBelow_iff.1 hpre, hv⟩,
        fun hwrong => absurd hkind (by rw [hwrong]; exact Bool.false_ne_true)⟩
  · have hwrong := Bool.eq_false_of_not_eq_true hkind
    rw [checkField_of_wrong_kind hwrong] at h
    cases h
    refine ⟨fieldValue f, rfl, hnone, fun hright => absurd hright hkind, ?_⟩
    rintro _ n rfl
    rfl

theorem FirstMisfit.append {t : OperandType} {f : Field} {v : Nat} (h : FirstMisfit [t] [f] 0 v) (ts : List OperandType)
    (fs : List Field) : FirstMisfit (t :: ts) (f :: fs) 0 v :=
  ⟨fun p hp => absurd hp (Nat.not_lt_zero p), h.2⟩

theorem FirstMisfit.cons {t : OperandType} {f : Field} {ts : List OperandType} {fs : List Field} {pos v : Nat}
    (hfits : FieldFits t f) (h : FirstMisfit ts fs pos v) : FirstMisfit (t :: ts) (f :: fs) (pos + 1) v := by
  obtain ⟨hbefore, hat⟩ := h
  refine ⟨fun p hp => ?_, hat⟩
  cases p with
  | zero => exact ⟨t, f, rfl, rfl, hfits⟩
  | succ p => exact hbefore p (Nat.lt_of_succ_lt_succ hp)

/-- The check of the fields reports the first misfit (60_exceptions.md R479). -/
theorem checkFields_eq_error {pos : Nat} {ts : List OperandType} {fs : List Field} {r : Raise}
    (h : checkFields pos ts fs = .error r) : ∃ p v, r = badOperand (pos + p) v ∧ FirstMisfit ts fs p v := by
  induction ts generalizing fs pos with
  | nil =>
    cases fs with
    | nil => cases h
    | cons f fs =>
      cases h
      refine ⟨0, fieldValue f, rfl, fun p hp => absurd hp (Nat.not_lt_zero p), ?_⟩
      rintro n rfl
      rfl
  | cons t ts ih =>
    cases fs with
    | nil =>
      cases h
      exact ⟨0, _, rfl, fun p hp => absurd hp (Nat.not_lt_zero p), trivial⟩
    | cons f fs =>
      rw [checkFields] at h
      cases hc : checkField pos t f with
      | error r' =>
        rw [hc, after_error] at h
        cases h
        obtain ⟨v, hr, hfirst⟩ := checkField_eq_error hc
        exact ⟨0, v, hr, hfirst.append ts fs⟩
      | ok u =>
        rw [hc, after_ok] at h
        obtain ⟨p, v, hr, hfirst⟩ := ih h
        exact ⟨p + 1, v, by rw [hr, Nat.add_right_comm, Nat.add_assoc], hfirst.cons (fieldFits_of_checkField hc)⟩

/-! ## Results that never raise BAD_OPERAND -/

/-- The raise, if there is one, is not BAD_OPERAND. -/
def OperandFaultFree {α : Type} (r : Except Raise α) : Prop := ∀ f, r = .error f → f.kind ≠ .badOperand

theorem OperandFaultFree.ok {α : Type} (v : α) : OperandFaultFree (.ok v : Except Raise α) := fun _ h => nomatch h

theorem OperandFaultFree.error {α : Type} {kind : FaultKind} {info : List Nat} (h : kind ≠ .badOperand) :
    OperandFaultFree (.error ⟨kind, info⟩ : Except Raise α) := fun _ hf => Except.error.inj hf ▸ h

theorem OperandFaultFree.map {α β : Type} {r : Except Raise α} (h : OperandFaultFree r) (g : α → β) :
    OperandFaultFree (r.map g) := by
  cases r with
  | ok v => exact .ok _
  | error f => exact .error (h f rfl)

theorem OperandFaultFree.after {α : Type} {c : Except Raise Unit} {r : Except Raise α} (hc : OperandFaultFree c)
    (hr : OperandFaultFree r) : OperandFaultFree (after c r) := by
  cases c with
  | ok _ => exact hr
  | error f => exact .error (hc f rfl)

theorem OperandFaultFree.ite {α : Type} {p : Prop} [Decidable p] {r r' : Except Raise α} (h : OperandFaultFree r)
    (h' : OperandFaultFree r') : OperandFaultFree (if p then r else r') := by
  split
  · exact h
  · exact h'

theorem checkStats_operandFaultFree (vd : VarDiv) (st : Stats) : OperandFaultFree (checkStats vd st) :=
  .ite (.error (by decide)) (.ok _)

theorem bufferStats_operandFaultFree (vd : VarDiv) (mb : List Nat) : OperandFaultFree (bufferStats vd mb) :=
  .ite (.error (by decide)) (.ite (.error (by decide)) (.ok _))

theorem preamble_operandFaultFree (vd : VarDiv) (mb : List Nat) (st : Stats) (i : Nat) :
    OperandFaultFree (preamble vd mb st i) :=
  .ite (.error (by decide)) (.after (checkStats_operandFaultFree vd st) (.ok _))

theorem ppmBit_operandFaultFree (mb : List Nat) (j : Nat) : OperandFaultFree (ppmBit mb j) :=
  .ite (.error (by decide)) (.ok _)

theorem ppmFrame_operandFaultFree (mb : List Nat) (first count : Nat) : OperandFaultFree (ppmFrame mb first count) :=
  .ite (.error (by decide)) (.ite (.error (by decide)) (.ok _))

theorem crcCheck_operandFaultFree (frame : List Byte) : OperandFaultFree (crcCheck frame) :=
  .ite (.error (by decide)) (.ok _)

theorem extractBits_operandFaultFree (buf : List Byte) (lo hi : Nat) : OperandFaultFree (extractBits buf lo hi) :=
  .ite (.error (by decide)) (.ite (.error (by decide)) (.ok _))

theorem dfCheck_operandFaultFree (frame : List Byte) : OperandFaultFree (dfCheck frame) :=
  .ite (.error (by decide)) (.ok _)

theorem decodeFrame_operandFaultFree (frame : List Byte) : OperandFaultFree (decodeFrame frame) :=
  .ite (.error (by decide)) (.ok _)

theorem scanStep_operandFaultFree (vd : VarDiv) (mb : List Nat) (st : Stats) (i : Nat) :
    OperandFaultFree (scanStep vd mb st i) := by
  by_cases hw : i + 240 ≤ mb.length
  · by_cases hs : checkStats vd st = .ok ()
    · rw [scanStep_eq_ok hw hs]
      exact .ok _
    · rw [scanStep_of_bad_stats hw hs]
      exact .error (by decide)
  · rw [scanStep_of_short (Nat.lt_of_not_le hw)]
    exact .error (by decide)

theorem scanBuffer_operandFaultFree (vd : VarDiv) (mb : List Nat) : OperandFaultFree (scanBuffer vd mb) := by
  rw [scanBuffer_eq_ok]
  exact .ok _

/-! ## Every command checks its fields first -/

theorem after_after {α : Type} (c d : Except Raise Unit) (r : Except Raise α) :
    after (after c d) r = after c (after d r) := by
  cases c <;> rfl

theorem after_ok_unit (c : Except Raise Unit) : after c (.ok ()) = c := by
  cases c <;> rfl

theorem map_after {α β : Type} (g : α → β) (c : Except Raise Unit) (r : Except Raise α) :
    (after c r).map g = after c (r.map g) := by
  cases c <;> rfl

/-- `r` is the check of the fields of `i`, and then an answer that does not raise BAD_OPERAND (60_exceptions.md
R479). -/
def ChecksOperands (i : Instr) (r : Except Raise (Result × Units)) : Prop :=
  ∃ r', r = after (checkFields 0 (operandTypes i.word) i.fields) r' ∧ OperandFaultFree r'

theorem ChecksOperands.of_check {i : Instr} {c : Except Raise Unit} {r : Except Raise (Result × Units)}
    (hc : checkFields 0 (operandTypes i.word) i.fields = c) (hr : OperandFaultFree r) : ChecksOperands i (after c r) :=
  ⟨r, by rw [hc], hr⟩

theorem ChecksOperands.of_two_checks {i : Instr} {c d : Except Raise Unit} {r : Except Raise (Result × Units)}
    (hc : checkFields 0 (operandTypes i.word) i.fields = after c d) (hr : OperandFaultFree r) :
    ChecksOperands i (after c (after d r)) :=
  ⟨r, by rw [hc, after_after], hr⟩

theorem checkFields_seq {w : Nat} {xs : List Nat} : checkFields 0 [.seqOf w] [.seq xs] = checkSeq w 0 xs :=
  after_ok_unit _

theorem checkFields_num_num {w w' a b : Nat} :
    checkFields 0 [.u w, .u w'] [.num a, .num b] = after (checkNum w 0 a) (checkNum w' 1 b) :=
  congrArg (after _) (after_ok_unit _)

theorem checkFields_entry {e : Entry} : checkFields 0 [.entry] [.entry e] = checkEntry 0 e := after_ok_unit _

/-- The datapath's commands: PUSH and POP are the FIFO's. -/
def IsDatapath (i : Instr) : Prop := i.port = .cmd ∧ i ≠ .pop ∧ ∀ e, i ≠ .push e

theorem exec_datapath {i : Instr} (h : IsDatapath i) (s : State) :
    ∃ r, exec i s = command i.word s r ∧ ChecksOperands i r := by
  obtain ⟨hcmd, hpop, hpush⟩ := h
  cases i with
  | mag i q => exact ⟨_, rfl, .of_two_checks checkFields_num_num (.ok _)⟩
  | magblk blk =>
    refine ⟨_, rfl, ?_⟩
    rw [magBlock, map_after]
    exact .of_check checkFields_seq (.map (.ite (.error (by decide)) (.ok _)) _)
  | stats mb => exact ⟨_, rfl, .of_check checkFields_seq (.map (bufferStats_operandFaultFree _ _) _)⟩
  | above x st => exact ⟨_, rfl, .of_check (after_ok_unit _) (.after (checkStats_operandFaultFree _ _) (.ok _))⟩
  | belowhalf x st => exact ⟨_, rfl, .of_check (after_ok_unit _) (.after (checkStats_operandFaultFree _ _) (.ok _))⟩
  | preamble mb st i => exact ⟨_, rfl, .of_check (after_ok_unit _) (.map (preamble_operandFaultFree _ _ _ _) _)⟩
  | ppmbit mb j => exact ⟨_, rfl, .of_check (after_ok_unit _) (.map (ppmBit_operandFaultFree _ _) _)⟩
  | ppmframe mb first count => exact ⟨_, rfl, .of_check (after_ok_unit _) (.map (ppmFrame_operandFaultFree _ _ _) _)⟩
  | crcstep r b => exact ⟨_, rfl, .of_two_checks checkFields_num_num (.ok _)⟩
  | crcrem buf => exact ⟨_, rfl, .of_check checkFields_seq (.ok _)⟩
  | crccheck frame => exact ⟨_, rfl, .of_check checkFields_seq (.map (crcCheck_operandFaultFree _) _)⟩
  | xbits buf lo hi => exact ⟨_, rfl, .of_check (after_ok_unit _) (.map (extractBits_operandFaultFree _ _ _) _)⟩
  | dfcheck frame => exact ⟨_, rfl, .of_check checkFields_seq (.map (dfCheck_operandFaultFree _) _)⟩
  | decode frame => exact ⟨_, rfl, .of_check checkFields_seq (.map (decodeFrame_operandFaultFree _) _)⟩
  | fifostat => exact ⟨_, rfl, ⟨_, rfl, .ok _⟩⟩
  | scanstep mb st i => exact ⟨_, rfl, .of_check (after_ok_unit _) (.map (scanStep_operandFaultFree _ _ _ _) _)⟩
  | scan mb => exact ⟨_, rfl, .of_check checkFields_seq (.map (scanBuffer_operandFaultFree _ _) _)⟩
  | pop => exact absurd rfl hpop
  | push e => exact absurd rfl (hpush e)
  | pPoll | pPush | pEnd | cPop | cScan | start | coJoinP | coJoinC | hSrcOk _ | hSrcErr | hCancel => cases hcmd

theorem ChecksOperands.operandFaultFree {i : Instr} {r : Except Raise (Result × Units)} (h : ChecksOperands i r)
    (hwf : i.wf = true) : OperandFaultFree r := by
  obtain ⟨r', rfl, hr⟩ := h
  rwa [(wf_iff_checkFields i).1 hwf, after_ok]

/-- A misfit is the whole effect of a command-port operation, PUSH included. -/
theorem exec_of_misfit {i : Instr} {s : State} {f : Raise} (hl : Live s) (hp : i.port = .cmd)
    (hf : checkFields 0 (operandTypes i.word) i.fields = .error f) : exec i s = .next (s.raise i.word f) := by
  by_cases hdata : IsDatapath i
  · obtain ⟨r, hexec, r', hr, _⟩ := exec_datapath hdata s
    rw [hexec, hr, hf, after_error, command_error hl]
  · simp only [IsDatapath, hp, true_and, not_and, not_forall, not_not] at hdata
    by_cases hpop : i = .pop
    · subst hpop
      cases hf
    · obtain ⟨e, rfl⟩ := hdata hpop
      exact exec_push_of_misfit hl (checkFields_entry.symm.trans hf)

/-! ## What a command answers -/

/-- Two answers that reply alike or raise alike; the units they leave may differ. -/
def SameReply (r r' : Except Raise (Result × Units)) : Prop := r.map Prod.fst = r'.map Prod.fst

theorem sameReply_ok (v : Result) (u u' : Units) : SameReply (.ok (v, u)) (.ok (v, u')) := rfl

theorem sameReply_map {α : Type} (x : Except Raise α) (v : α → Result) (u u' : α → Units) :
    SameReply (x.map fun a => (v a, u a)) (x.map fun a => (v a, u' a)) := by
  cases x <;> rfl

theorem SameReply.after {r r' : Except Raise (Result × Units)} (h : SameReply r r') (c : Except Raise Unit) :
    SameReply (after c r) (after c r') := by
  cases c with
  | ok _ => exact h
  | error f => rfl

/-- A command but FIFOSTAT reads the configuration and the units' registers alone, and replies the same whatever those
registers hold (30_encoding.md R159). -/
theorem exec_datapath_sameReply {i : Instr} (h : IsDatapath i) (hstat : i ≠ .fifostat) {s s' : State}
    (hc : s.cfg = s'.cfg) :
    ∃ r r', exec i s = command i.word s r ∧ exec i s' = command i.word s' r' ∧ SameReply r r' := by
  obtain ⟨hcmd, hpop, hpush⟩ := h
  cases i with
  | mag i q => exact ⟨_, _, rfl, rfl, by rw [hc]; exact .after (.after (sameReply_ok ..) _) _⟩
  | magblk blk => exact ⟨_, _, rfl, rfl, by rw [hc]; exact sameReply_map ..⟩
  | stats mb => exact ⟨_, _, rfl, rfl, by rw [hc]; exact .after (sameReply_map ..) _⟩
  | above x st => exact ⟨_, _, rfl, rfl, by rw [hc]; exact .after (.after (sameReply_ok ..) _) _⟩
  | belowhalf x st => exact ⟨_, _, rfl, rfl, by rw [hc]; exact .after (.after (sameReply_ok ..) _) _⟩
  | preamble mb st i => exact ⟨_, _, rfl, rfl, by rw [hc]; exact .after (sameReply_map ..) _⟩
  | ppmbit mb j => exact ⟨_, _, rfl, rfl, .after (sameReply_map ..) _⟩
  | ppmframe mb first count => exact ⟨_, _, rfl, rfl, .after (sameReply_map ..) _⟩
  | crcstep r b => exact ⟨_, _, rfl, rfl, .after (.after (sameReply_ok ..) _) _⟩
  | crcrem buf => exact ⟨_, _, rfl, rfl, .after (sameReply_ok ..) _⟩
  | crccheck frame => exact ⟨_, _, rfl, rfl, .after (sameReply_map ..) _⟩
  | xbits buf lo hi => exact ⟨_, _, rfl, rfl, .after (sameReply_map ..) _⟩
  | dfcheck frame => exact ⟨_, _, rfl, rfl, .after (sameReply_map ..) _⟩
  | decode frame => exact ⟨_, _, rfl, rfl, .after (sameReply_map ..) _⟩
  | scanstep mb st i => exact ⟨_, _, rfl, rfl, by rw [hc]; exact .after (sameReply_map ..) _⟩
  | scan mb => exact ⟨_, _, rfl, rfl, by rw [hc]; exact .after (sameReply_map ..) _⟩
  | fifostat => exact absurd rfl hstat
  | pop => exact absurd rfl hpop
  | push e => exact absurd rfl (hpush e)
  | pPoll | pPush | pEnd | cPop | cScan | start | coJoinP | coJoinC | hSrcOk _ | hSrcErr | hCancel => cases hcmd

theorem SameReply.command_next {op : BitVec 8} {s s' t t' : State} {r r' : Except Raise (Result × Units)}
    (h : SameReply r r') (hl : Live s) (hl' : Live s') (hreplies : s.replies = s'.replies)
    (ht : command op s r = .next t) (ht' : command op s' r' = .next t') :
    t.replies = t'.replies ∧ t.sys.fault = t'.sys.fault := by
  cases r with
  | ok v =>
    cases r' with
    | error f => cases h
    | ok v' =>
      have hv : v.1 = v'.1 := Except.ok.inj h
      rw [command_ok hl] at ht
      rw [command_ok hl'] at ht'
      cases ht
      cases ht'
      exact ⟨by simp only [State.addReply_replies, State.setUnits_replies, hreplies, hv],
        by simp only [State.addReply_sys, State.setUnits_sys, hl, hl']⟩
  | error f =>
    cases r' with
    | ok v' => cases h
    | error f' =>
      have hf : f = f' := Except.error.inj h
      rw [command_error hl, State.raise_of_live hl] at ht
      rw [command_error hl', State.raise_of_live hl'] at ht'
      cases ht
      cases ht'
      exact ⟨hreplies, by simp only [State.setFault_fault, hf]⟩

/-- Settles O51: a datapath command is `command` of an answer that reads the configuration alone. -/
theorem commandsLeaveThePipeline : Obligations.CommandsLeaveThePipeline := by
  unfold Obligations.CommandsLeaveThePipeline
  refine ⟨fun i s t hp hpop hpush hexec => ?_, fun i s s' t t' hp hpop hstat hpush hl hl' hc hreplies ht ht' => ?_⟩
  · obtain ⟨r, hr, _⟩ := exec_datapath ⟨hp, hpop, hpush⟩ s
    rw [hr] at hexec
    obtain ⟨hcfg, hpushPort, hpopPort, hsched, hsys⟩ := command_frame hexec
    exact ⟨hsys, hpushPort, hpopPort, hcfg, hsched⟩
  · obtain ⟨r, r', hr, hr', hsame⟩ := exec_datapath_sameReply ⟨hp, hpop, hpush⟩ hstat hc
    rw [hr] at ht
    rw [hr'] at ht'
    exact hsame.command_next hl hl' hreplies ht ht'

end Sys2Proof.Machine
end

section
/-! Everything an operation of a live machine can do, said once (`Move`), and everything one step can do (`Action`): the
statements about steps and runs are case analyses of these two. -/

namespace Sys2Proof.Machine

/-! ## Operations -/

/-- Which operations of which states can raise: a command, START on a nonempty FIFO, a source answer that is no block of
bytes, and a scan with statistics that no buffer has (47_pipeline.md R424, R430, R432). -/
def MayRaise (i : Instr) (s : State) (f : Raise) : Prop :=
  match i with
  | .hSrcOk blk => s.sys.ps = .read ∧ blk.length = s.cfg.blockBytes ∧ magBlock s.cfg.c blk = .error f
  | .cScan => ∃ mb st j, s.sys.cs = .scan mb st j ∧ j + 240 ≤ mb.length ∧ checkStats s.cfg.varDiv st ≠ .ok ()
  | .start => s.sys.co = .idle
  | i => i.port = .cmd

/-- The next states of an operation of a live machine, one constructor per case of its rule. -/
inductive Move : Instr → State → State → Prop
  | reply {i : Instr} {s : State} (v : Result) (u : Units) (hi : IsDatapath i) :
      Move i s ((s.setUnits u).addReply i.word v)
  | raise {i : Instr} {s : State} {f : Raise} (hmay : MayRaise i s f) (hkind : i.wf = true → f.kind ≠ .badOperand) :
      Move i s (s.raise i.word f)
  | wait {i : Instr} {s : State} (hi : i ∈ agentSteps) (hdis : ¬ agentEnabled i s) : Move i s s
  | push {s : State} {e : Entry} (he : e.wf = true) (hco : s.sys.co = .idle) (hroom : s.sys.fifo.length < s.cfg.k) :
      Move (.push e) s ((s.setFifo (s.sys.fifo ++ [e])).addReply 0x30 .done)
  | pushWait {s : State} {e : Entry} (he : e.wf = true) (hco : s.sys.co = .idle) :
      Move (.push e) s (s.setPushPort (some e))
  | pop {s : State} {e : Entry} {q : List Entry} (hco : s.sys.co = .idle) (hq : s.sys.fifo = e :: q) :
      Move .pop s ((s.setFifo q).addReply 0x31 (.entry e))
  | popWait {s : State} (hco : s.sys.co = .idle) : Move .pop s (s.setPopPort true)
  | poll {s : State} (hps : s.sys.ps = .poll) : Move .pPoll s (s.setPs (if s.sys.cancel then .stop else .read))
  | pushHeld {s : State} {e : Entry} (hps : s.sys.ps = .push e) (hroom : s.sys.fifo.length < s.cfg.k) :
      Move .pPush s ((s.setFifo (s.sys.fifo ++ [e])).setPs .poll)
  | pushEnd {s : State} (hps : s.sys.ps = .stop) (hroom : s.sys.fifo.length < s.cfg.k) :
      Move .pEnd s ((s.setFifo (s.sys.fifo ++ [.endMark])).setPs .done)
  | popEnd {s : State} {q : List Entry} (hcs : s.sys.cs = .pop) (hq : s.sys.fifo = .endMark :: q) :
      Move .cPop s ((s.setFifo q).setCs .done)
  | popShort {s : State} {mb : List Nat} {q : List Entry} (hcs : s.sys.cs = .pop) (hq : s.sys.fifo = .data mb :: q)
      (hshort : mb.length < 240) : Move .cPop s (s.setFifo q)
  | popLong {s : State} {mb : List Nat} {q : List Entry} (hcs : s.sys.cs = .pop) (hq : s.sys.fifo = .data mb :: q)
      (hlong : 240 ≤ mb.length) :
      Move .cPop s (((s.setFifo q).setUnits (s.units.withStats (statsOf mb))).setCs (.scan mb (statsOf mb) 0))
  | scan {s : State} {mb : List Nat} {st : Stats} {i : Nat} (hcs : s.sys.cs = .scan mb st i) (hw : i + 240 ≤ mb.length)
      (hst : checkStats s.cfg.varDiv st = .ok ()) :
      Move .cScan s (((s.setUnits (s.units.afterScanStep s.cfg.varDiv mb st i)).setOut
        (s.sys.out ++ (candidatePacket s.cfg.varDiv mb st i).toList)).setCs (.scan mb st (i + 1)))
  | scanEnd {s : State} {mb : List Nat} {st : Stats} {i : Nat} (hcs : s.sys.cs = .scan mb st i)
      (hw : mb.length < i + 240) : Move .cScan s (s.setCs .pop)
  | start {s : State} (hco : s.sys.co = .idle) (hq : s.sys.fifo = []) :
      Move .start s (((s.setCo .waitP).setPs .poll).setCs .pop)
  | joinP {s : State} (hco : s.sys.co = .waitP) (hps : s.sys.ps = .done) : Move .coJoinP s (s.setCo .waitC)
  | joinC {s : State} (hco : s.sys.co = .waitC) (hcs : s.sys.cs = .done) :
      Move .coJoinC s ((s.setStatus (some (if s.sys.acqErr then .acqError else .ok))).setCo .exited)
  | srcOk {s : State} {blk mb : List Nat} (hps : s.sys.ps = .read) (hlen : blk.length = s.cfg.blockBytes)
      (hmb : magBlock s.cfg.c blk = .ok mb) : Move (.hSrcOk blk) s (s.setPs (.push (.data mb)))
  | srcErr {s : State} (hps : s.sys.ps = .read) : Move .hSrcErr s ((s.setAcqErr true).setPs .stop)
  | cancel {s : State} : Move .hCancel s (s.setCancel true)

/-- An operation whose outcome an equation gives makes the move of that outcome. -/
theorem Move.of_exec {i : Instr} {s t u : State} (h : exec i s = .next t) (hu : exec i s = .next u) (m : Move i s u) :
    Move i s t := by
  rw [hu] at h
  injection h with h
  exact h ▸ m

theorem exec_ne_refused {i : Instr} {s t : State} (h : exec i s = .next t) (r : Refusal) : exec i s ≠ .refused r := by
  rw [h]
  exact fun hr => nomatch hr

theorem magBlock_operandFaultFree {c : Nat} {blk : List Nat} (hb : seqBelow 8 blk = true) :
    OperandFaultFree (magBlock c blk) := by
  rw [magBlock, checkBytes, checkSeq_of_seqBelow hb, after_ok]
  exact .ite (.error (by decide)) (.ok _)

section ExecNext

variable {s t : State} (hl : Live s)
include hl

theorem exec_datapath_next {i : Instr} (hi : IsDatapath i) (h : exec i s = .next t) : Move i s t := by
  obtain ⟨r, hr, hcheck⟩ := exec_datapath hi s
  rw [hr] at h
  rcases command_next h with ⟨hf, _⟩ | ⟨_, v, u, _, rfl⟩ | ⟨_, f, rfl, rfl⟩
  · exact absurd hl hf
  · exact .reply v u hi
  · refine .raise ?_ fun hwf => hcheck.operandFaultFree hwf f rfl
    obtain ⟨hcmd, _⟩ := hi
    cases i <;> first | exact hcmd | cases hcmd

theorem exec_push_next {e : Entry} (h : exec (.push e) s = .next t) : Move (.push e) s t := by
  cases hc : checkEntry 0 e with
  | error f =>
    refine .of_exec h (exec_push_of_misfit hl hc) (.raise rfl fun hwf => ?_)
    rw [checkEntry_eq_ok.2 hwf] at hc
    cases hc
  | ok _ =>
    have he : e.wf = true := checkEntry_eq_ok.1 hc
    by_cases hco : s.sys.co = .idle
    · by_cases hport : s.pushPort = none
      · have hfree := exec_push_of_free hl he hco hport
        split at hfree
        next hroom => exact .of_exec h hfree (.push he hco hroom)
        next => exact .of_exec h hfree (.pushWait he hco)
      · exact absurd (exec_push_of_occupied hl he hco hport) (exec_ne_refused h _)
    · exact .of_exec h (exec_push_of_running hl he hco) (.raise rfl fun _ => (by decide : FaultKind.busy ≠ .badOperand))

theorem exec_pop_next (h : exec .pop s = .next t) : Move .pop s t := by
  by_cases hco : s.sys.co = .idle
  · cases hport : s.popPort with
    | true => exact absurd (exec_pop_of_occupied hl hco hport) (exec_ne_refused h _)
    | false =>
      have hfree := exec_pop_of_free hl hco hport
      split at hfree
      next => exact .of_exec h hfree (.popWait hco)
      next e q hq => exact .of_exec h hfree (.pop hco hq)
  · exact .of_exec h (exec_pop_of_running hl hco) (.raise rfl fun _ => (by decide : FaultKind.busy ≠ .badOperand))

theorem exec_pPoll_next (h : exec .pPoll s = .next t) : Move .pPoll s t := by
  by_cases hen : agentEnabled .pPoll s
  · obtain ⟨_, hps⟩ := hen
    exact .of_exec h (exec_pPoll_of_poll hl hps) (.poll hps)
  · exact .of_exec h (exec_pPoll_waits hen) (.wait (by decide) hen)

theorem exec_pPush_next (h : exec .pPush s = .next t) : Move .pPush s t := by
  by_cases hen : agentEnabled .pPush s
  · obtain ⟨_, ⟨e, hps⟩, hroom⟩ := hen
    exact .of_exec h (exec_pPush_of_room hl hps hroom) (.pushHeld hps hroom)
  · exact .of_exec h (exec_pPush_waits hen) (.wait (by decide) hen)

theorem exec_pEnd_next (h : exec .pEnd s = .next t) : Move .pEnd s t := by
  by_cases hen : agentEnabled .pEnd s
  · obtain ⟨_, hps, hroom⟩ := hen
    exact .of_exec h (exec_pEnd_of_room hl hps hroom) (.pushEnd hps hroom)
  · exact .of_exec h (exec_pEnd_waits hen) (.wait (by decide) hen)

theorem exec_cPop_next (h : exec .cPop s = .next t) : Move .cPop s t := by
  by_cases hen : agentEnabled .cPop s
  · obtain ⟨_, hcs, hpos⟩ := hen
    obtain ⟨e, q, hq⟩ := List.exists_cons_of_length_pos hpos
    cases e with
    | endMark => exact .of_exec h (exec_cPop_of_endMark hl hcs hq) (.popEnd hcs hq)
    | data mb =>
      by_cases hlong : 240 ≤ mb.length
      · exact .of_exec h (exec_cPop_of_long hl hcs hq hlong) (.popLong hcs hq hlong)
      · have hshort := Nat.lt_of_not_le hlong
        exact .of_exec h (exec_cPop_of_short hl hcs hq hshort) (.popShort hcs hq hshort)
  · exact .of_exec h (exec_cPop_waits hen) (.wait (by decide) hen)

theorem exec_cScan_of_stats {mb : List Nat} {st : Stats} {i : Nat} (hcs : s.sys.cs = .scan mb st i)
    (hw : i + 240 ≤ mb.length) (hst : checkStats s.cfg.varDiv st = .ok ()) :
    exec .cScan s = .next (((s.setUnits (s.units.afterScanStep s.cfg.varDiv mb st i)).setOut
      (s.sys.out ++ (candidatePacket s.cfg.varDiv mb st i).toList)).setCs (.scan mb st (i + 1))) := by
  rw [exec_cScan_of_fits hl hcs hw, scanStep_eq_ok hw hst, map_ok, finish_ok]

theorem exec_cScan_next (h : exec .cScan s = .next t) : Move .cScan s t := by
  by_cases hen : agentEnabled .cScan s
  · obtain ⟨_, mb, st, i, hcs⟩ := hen
    by_cases hw : i + 240 ≤ mb.length
    · by_cases hst : checkStats s.cfg.varDiv st = .ok ()
      · exact .of_exec h (exec_cScan_of_stats hl hcs hw hst) (.scan hcs hw hst)
      · have hraise := exec_cScan_of_fits hl hcs hw
        rw [scanStep_of_bad_stats hw hst, map_error, finish_error] at hraise
        exact .of_exec h hraise
          (.raise ⟨mb, st, i, hcs, hw, hst⟩ fun _ => (by decide : FaultKind.badStats ≠ .badOperand))
    · have hend := Nat.lt_of_not_le hw
      exact .of_exec h (exec_cScan_of_end hl hcs hend) (.scanEnd hcs hend)
  · exact .of_exec h (exec_cScan_waits hen) (.wait (by decide) hen)

theorem exec_start_next (h : exec .start s = .next t) : Move .start s t := by
  by_cases hco : s.sys.co = .idle
  · by_cases hq : s.sys.fifo = []
    · exact .of_exec h (exec_start_of_empty hl hco hq) (.start hco hq)
    · exact .of_exec h (exec_start_of_nonempty hl hco hq)
        (.raise hco fun _ => (by decide : FaultKind.busy ≠ .badOperand))
  · exact absurd (exec_start_of_started hl hco) (exec_ne_refused h _)

theorem exec_coJoinP_next (h : exec .coJoinP s = .next t) : Move .coJoinP s t := by
  by_cases hen : agentEnabled .coJoinP s
  · obtain ⟨_, hco, hps⟩ := hen
    exact .of_exec h (execCoJoinP_of_done hl hco hps) (.joinP hco hps)
  · exact .of_exec h (exec_coJoinP_waits hen) (.wait (by decide) hen)

theorem exec_coJoinC_next (h : exec .coJoinC s = .next t) : Move .coJoinC s t := by
  by_cases hen : agentEnabled .coJoinC s
  · obtain ⟨_, hco, hcs⟩ := hen
    exact .of_exec h (exec_coJoinC_of_done hl hco hcs) (.joinC hco hcs)
  · exact .of_exec h (exec_coJoinC_waits hen) (.wait (by decide) hen)

theorem exec_hSrcOk_of_unasked {blk : List Nat} (hps : s.sys.ps ≠ .read) :
    exec (.hSrcOk blk) s = .refused .hostAnswerUnasked :=
  (whenLive_of_live hl _).trans (if_neg (mt readRequested_eq_true_iff.1 hps))

theorem exec_hSrcOk_of_length {blk : List Nat} (hps : s.sys.ps = .read) (hlen : blk.length ≠ s.cfg.blockBytes) :
    exec (.hSrcOk blk) s = .refused .hostBlockLength :=
  (whenLive_of_live hl _).trans ((if_pos (readRequested_eq_true_iff.2 hps)).trans (if_neg hlen))

theorem exec_hSrcErr_of_unasked (hps : s.sys.ps ≠ .read) : exec .hSrcErr s = .refused .hostAnswerUnasked :=
  (whenLive_of_live hl _).trans (if_neg (mt readRequested_eq_true_iff.1 hps))

theorem exec_hSrcOk_next {blk : List Nat} (h : exec (.hSrcOk blk) s = .next t) : Move (.hSrcOk blk) s t := by
  by_cases hps : s.sys.ps = .read
  · by_cases hlen : blk.length = s.cfg.blockBytes
    · have hanswer := exec_hSrcOk_of_read hl hps hlen
      cases hmb : magBlock s.cfg.c blk with
      | ok mb =>
        rw [hmb, map_ok, finish_ok] at hanswer
        exact .of_exec h hanswer (.srcOk hps hlen hmb)
      | error f =>
        rw [hmb, map_error, finish_error] at hanswer
        exact .of_exec h hanswer (.raise ⟨hps, hlen, hmb⟩ fun hwf => magBlock_operandFaultFree hwf f hmb)
    · exact absurd (exec_hSrcOk_of_length hl hps hlen) (exec_ne_refused h _)
  · exact absurd (exec_hSrcOk_of_unasked hl hps) (exec_ne_refused h _)

theorem exec_hSrcErr_next (h : exec .hSrcErr s = .next t) : Move .hSrcErr s t := by
  by_cases hps : s.sys.ps = .read
  · exact .of_exec h (execHSrcErr_of_read hl hps) (.srcErr hps)
  · exact absurd (exec_hSrcErr_of_unasked hl hps) (exec_ne_refused h _)

/-- Every next state of an operation of a live machine is one of its moves. -/
theorem exec_next {i : Instr} (h : exec i s = .next t) : Move i s t := by
  by_cases hi : IsDatapath i
  · exact exec_datapath_next hl hi h
  · cases i with
    | push e => exact exec_push_next hl h
    | pop => exact exec_pop_next hl h
    | pPoll => exact exec_pPoll_next hl h
    | pPush => exact exec_pPush_next hl h
    | pEnd => exact exec_pEnd_next hl h
    | cPop => exact exec_cPop_next hl h
    | cScan => exact exec_cScan_next hl h
    | start => exact exec_start_next hl h
    | coJoinP => exact exec_coJoinP_next hl h
    | coJoinC => exact exec_coJoinC_next hl h
    | hSrcOk blk => exact exec_hSrcOk_next hl h
    | hSrcErr => exact exec_hSrcErr_next hl h
    | hCancel => exact .of_exec h (exec_hCancel_of_live hl) .cancel
    | _ => exact absurd ⟨rfl, nofun, nofun⟩ hi

end ExecNext

/-! ## What a raise leaves -/

/-- A move is the raise of a fault, or it leaves the fault as it was. -/
theorem Move.raise_or_fault_eq {i : Instr} {s t : State} (m : Move i s t) :
    (∃ f, t = s.raise i.word f ∧ MayRaise i s f ∧ (i.wf = true → f.kind ≠ .badOperand)) ∨
      t.sys.fault = s.sys.fault := by
  cases m with
  | raise hmay hkind => exact .inl ⟨_, rfl, hmay, hkind⟩
  | _ => exact .inr rfl

theorem FaultKind.code_mem (k : FaultKind) : 1 ≤ k.code ∧ k.code ≤ 10 := by
  cases k <;> decide

theorem FaultKind.code_eq_nine_iff (k : FaultKind) : k.code = 9 ↔ k = .badOperand := by
  cases k <;> decide

/-- Settles O50: the only move that leaves a fault in a live machine is `State.raise`. -/
theorem raiseIsPrecise : Obligations.RaiseIsPrecise := by
  unfold Obligations.RaiseIsPrecise
  intro i s t hl hexec hfault
  rcases (exec_next hl hexec).raise_or_fault_eq with ⟨f, rfl, _, _⟩ | hsame
  · obtain ⟨hlo, hhi⟩ := f.kind.code_mem
    rw [State.raise_of_live hl]
    exact ⟨⟨f.kind.code, i.word, f.info⟩, rfl, hlo, hhi, rfl⟩
  · exact absurd (hsame.trans hl) hfault

theorem takeHost_of_decode_error {s : State} {r : Request} {e : DecodeError} {f : Raise} (hl : Live s)
    (hp : portOf r.word = some .cmd) (hd : decode r = .error e)
    (hf : checkFields 0 (operandTypes r.word) r.fields = .error f) : takeHost r s = .next (s.raise r.word f) := by
  rw [takeHost, whenLive_of_live hl, hp, hd]
  simp only [takeMisfit, hf]

/-- Settles O5: the check of the fields finds the first misfit, and no other raise is BAD_OPERAND. -/
theorem badOperandRaises : Obligations.BadOperandRaises := by
  unfold Obligations.BadOperandRaises
  refine ⟨fun i s hl hp hwf => ?_, fun r s e hl hp hd => ?_, fun i s t f hl hwf hexec hfault hcode => ?_⟩
  · cases hc : checkFields 0 (operandTypes i.word) i.fields with
    | ok _ => rw [(wf_iff_checkFields i).2 hc] at hwf; cases hwf
    | error f =>
      obtain ⟨p, v, rfl, hfirst⟩ := checkFields_eq_error hc
      refine ⟨p, v, hfirst, ?_⟩
      rw [exec_of_misfit hl hp hc, State.raise_of_live hl, Nat.zero_add]
      rfl
  · have hassigned : portOf r.word ≠ none := by
      rw [hp]
      exact Option.some_ne_none _
    obtain ⟨f, hc⟩ := checkFields_error_of_decode_error hassigned hd
    obtain ⟨p, v, rfl, hfirst⟩ := checkFields_eq_error hc
    refine ⟨p, v, hfirst, ?_⟩
    rw [takeHost_of_decode_error hl hp hd hc, State.raise_of_live hl, Nat.zero_add]
    rfl
  · rcases (exec_next hl hexec).raise_or_fault_eq with ⟨r, rfl, _, hkind⟩ | hsame
    · rw [State.raise_of_live hl, State.setFault_fault] at hfault
      cases hfault
      exact hkind hwf ((FaultKind.code_eq_nine_iff _).1 hcode)
    · rw [hsame, hl] at hfault
      cases hfault

/-! ## Steps -/

/-- The next states of a step other than a reset, by the operation its event asks for (47_pipeline.md R441, R442): the
event is used up, it is refused with a raise, the operation moves, or a waiting transaction completes. -/
inductive Action : Option Instr → State → State → Prop
  | stay {o : Option Instr} {s : State} (ho : o = none ∨ ¬ Live s) : Action o s s
  | refuse {o : Option Instr} {s : State} (op : BitVec 8) (f : Raise) (hl : Live s)
      (ho : ∀ i, o = some i → i.port = .step) : Action o s (s.raise op f)
  | move {i : Instr} {s t : State} (hl : Live s) (m : Move i s t) : Action (some i) s t
  | portPush {s : State} {e : Entry} (hl : Live s) (hco : s.sys.co = .idle) (hport : s.pushPort = some e)
      (hroom : s.sys.fifo.length < s.cfg.k) :
      Action none s (((s.setPushPort none).setFifo (s.sys.fifo ++ [e])).addReply 0x30 .done)
  | portPop {s : State} {e : Entry} {q : List Entry} (hl : Live s) (hco : s.sys.co = .idle)
      (hq : s.sys.fifo = e :: q) : Action none s (((s.setPopPort false).setFifo q).addReply 0x31 (.entry e))

theorem fifoPortStep_action {p : FifoPort} {s t : State} (h : fifoPortStep p s = .next t) : Action none s t := by
  have hstay (hs : fifoPortStep p s = .next s) : Action none s t := by
    rw [hs] at h
    injection h with h
    exact h ▸ .stay (.inl rfl)
  by_cases hl : Live s
  · by_cases hco : s.sys.co = .idle
    · cases p with
      | producer =>
        cases hport : s.pushPort with
        | none => exact hstay (fifoPortStep_producer_of_none hl hport)
        | some e =>
          by_cases hroom : s.sys.fifo.length < s.cfg.k
          · rw [fifoPortStep_producer_of_room hl hco hport hroom] at h
            injection h with h
            exact h ▸ .portPush hl hco hport hroom
          · exact hstay (fifoPortStep_producer_of_full hl (Nat.le_of_not_lt hroom))
      | consumer =>
        cases hport : s.popPort with
        | false => exact hstay (fifoPortStep_consumer_of_none hl hport)
        | true =>
          cases hq : s.sys.fifo with
          | nil => exact hstay (fifoPortStep_consumer_of_empty hl hq)
          | cons e q =>
            rw [fifoPortStep_consumer_of_entry hl hco hport hq] at h
            injection h with h
            exact h ▸ .portPop hl hco hq
    · exact hstay (fifoPortStep_of_running hl hco p)
  · exact hstay (whenLive_of_not_live hl _)

theorem exec_action {i : Instr} {s t : State} (h : exec i s = .next t) : Action (some i) s t := by
  by_cases hl : Live s
  · exact .move hl (exec_next hl h)
  · rw [exec_of_fault hl] at h
    injection h with h
    exact h ▸ .stay (.inr hl)

/-- The operation a transaction asks for, if it asks for one. -/
def requestInstr (r : Request) : Option Instr := (decode r).toOption

theorem requestInstr_eq_some {r : Request} {i : Instr} : requestInstr r = some i ↔ decode r = .ok i := by
  unfold requestInstr
  cases decode r <;> simp [Except.toOption]

theorem takeHost_action {r : Request} {s t : State} (h : takeHost r s = .next t) : Action (requestInstr r) s t := by
  cases hd : decode r with
  | error e =>
    have hnone : requestInstr r = none := by rw [requestInstr, hd]; rfl
    rw [hnone]
    rcases takeHost_next h with ⟨_, rfl⟩ | ⟨hl, rfl⟩ | ⟨_, i, hi, _⟩ | ⟨hl, f, _, rfl⟩
    · exact .stay (.inl rfl)
    · exact .refuse _ _ hl nofun
    · rw [hd] at hi
      cases hi
    · exact .refuse _ _ hl nofun
  | ok i =>
    rw [requestInstr_eq_some.2 hd]
    by_cases hp : i.port = .step
    · by_cases hl : Live s
      · have hport : portOf r.word = some .step := hp ▸ portOf_of_decode hd
        rw [takeHost_illegalOp hl (.inr hport)] at h
        injection h with h
        refine h ▸ .refuse _ _ hl fun j hj => ?_
        cases hj
        exact hp
      · rw [takeHost, whenLive_of_not_live hl] at h
        injection h with h
        exact h ▸ .stay (.inr hl)
    · rw [takeHost_of_decode hd hp] at h
      exact exec_action h

theorem takeAgent_action {w : BitVec 8} {s t : State} (h : takeAgent w s = .next t) :
    Action (requestInstr ⟨w, []⟩) s t := by
  obtain ⟨i, hd, _, hexec⟩ := takeAgent_next h
  rw [requestInstr_eq_some.2 hd]
  exact exec_action hexec

/-- The operation the event at the head of the schedule asks for. -/
theorem nextInstr_eq (s : State) :
    nextInstr s = match s.sched.head? with
      | some (.host r) => requestInstr r
      | some (.agent w) => requestInstr ⟨w, []⟩
      | _ => none := by
  unfold nextInstr requestInstr
  rcases s.sched with _ | ⟨ev, rest⟩
  · rfl
  · cases ev with
    | host r => cases h : decode r <;> simp [h, Except.toOption]
    | agent w => cases h : decode ⟨w, []⟩ <;> simp [h, Except.toOption]
    | port p => rfl
    | reset => rfl

/-- Every step but a reset is an action on the state without its event. -/
theorem step_action {s t : State} (h : step s = .next t) (hreset : s.sched.head? ≠ some .reset) :
    Action (nextInstr s) (s.setSched s.sched.tail) t := by
  rw [nextInstr_eq]
  rcases step_next h with ⟨hs, rfl⟩ | ⟨ev, rest, hs, htake⟩
  · have hself : t.setSched t.sched.tail = t := by
      obtain ⟨cfg, sys, units, pushPort, popPort, replies, sched⟩ := t
      cases hs
      rfl
    rw [hself, hs]
    exact .stay (.inl rfl)
  · rw [hs]
    cases ev with
    | host r => exact takeHost_action htake
    | agent w => exact takeAgent_action htake
    | port p => exact fifoPortStep_action htake
    | reset => exact absurd (by rw [hs]; rfl) hreset

/-! ## The FIFO under a step -/

theorem State.raise_fifo (s : State) (op : BitVec 8) (f : Raise) : (s.raise op f).sys.fifo = s.sys.fifo := by
  obtain ⟨_, _, _, _, _, _, hsys⟩ := s.raise_frame op f
  rw [hsys]

/-- What any step may do to the FIFO (46_fifo.md R391, R392). -/
def FifoStep (k : Nat) (q q' : List Entry) : Prop :=
  q' = q ∨ (∃ e, q' = q ++ [e] ∧ q.length < k) ∨ ∃ e, q = e :: q'

theorem Move.fifoStep {i : Instr} {s t : State} (m : Move i s t) : FifoStep s.cfg.k s.sys.fifo t.sys.fifo := by
  cases m with
  | raise => exact .inl (s.raise_fifo ..)
  | push _ _ hroom => exact .inr (.inl ⟨_, rfl, hroom⟩)
  | pushHeld _ hroom => exact .inr (.inl ⟨_, rfl, hroom⟩)
  | pushEnd _ hroom => exact .inr (.inl ⟨_, rfl, hroom⟩)
  | pop _ hq => exact .inr (.inr ⟨_, hq⟩)
  | popEnd _ hq => exact .inr (.inr ⟨_, hq⟩)
  | popShort _ hq _ => exact .inr (.inr ⟨_, hq⟩)
  | popLong _ hq _ => exact .inr (.inr ⟨_, hq⟩)
  | _ => exact .inl rfl

theorem Action.fifoStep {o : Option Instr} {s t : State} (a : Action o s t) :
    FifoStep s.cfg.k s.sys.fifo t.sys.fifo := by
  cases a with
  | stay => exact .inl rfl
  | refuse => exact .inl (s.raise_fifo ..)
  | move _ m => exact m.fifoStep
  | portPush _ _ _ hroom => exact .inr (.inl ⟨_, rfl, hroom⟩)
  | portPop _ _ hq => exact .inr (.inr ⟨_, hq⟩)

/-- Settles O34: an action changes the FIFO by one append within its capacity or by the removal of its head. -/
theorem fifoIsStrict : Obligations.FifoIsStrict := by
  unfold Obligations.FifoIsStrict
  exact fun s t hstep hreset => (step_action hstep hreset).fifoStep

end Sys2Proof.Machine
end

section
/-! The invariant of a run (10_state.md R76) is kept by every step: first one lemma per kind of change of `Sys`, then
the moves, each a composition of those. -/

namespace Sys2Proof.Machine

/-! ## What the invariant says of a running side -/

theorem RunInv.started_of_producer {s : State} (h : RunInv s) (hidle : s.sys.ps ≠ .idle) : s.sys.co ≠ .idle :=
  mt h.producer_idle.2 hidle

theorem RunInv.started_of_consumer {s : State} (h : RunInv s) (hidle : s.sys.cs ≠ .idle) : s.sys.co ≠ .idle :=
  mt h.consumer_idle.2 hidle

/-- The producer runs: it was started and has not pushed `End` yet (10_state.md R54). -/
def ProducerRuns (s : State) : Prop := s.sys.ps ≠ .idle ∧ s.sys.ps ≠ .done

/-- The consumer runs: it was started and has not popped `End` yet (10_state.md R55). -/
def ConsumerRuns (s : State) : Prop := s.sys.cs ≠ .idle ∧ s.sys.cs ≠ .done

theorem producerRuns_of_eq {s : State} {v : ProdState} (hps : s.sys.ps = v) (hidle : v ≠ .idle) (hdone : v ≠ .done) :
    ProducerRuns s := ⟨hps.trans_ne hidle, hps.trans_ne hdone⟩

theorem consumerRuns_of_eq {s : State} {v : ConsState} (hcs : s.sys.cs = v) (hidle : v ≠ .idle) (hdone : v ≠ .done) :
    ConsumerRuns s := ⟨hcs.trans_ne hidle, hcs.trans_ne hdone⟩

theorem consumerRuns_of_scan {s : State} {mb : List Nat} {st : Stats} {i : Nat} (hcs : s.sys.cs = .scan mb st i) :
    ConsumerRuns s := consumerRuns_of_eq hcs nofun nofun

/-- While the producer runs the coordinator waits for it, the consumer has not seen `End`, and there is none queued. -/
theorem RunInv.of_producerRuns {s : State} (h : RunInv s) (hp : ProducerRuns s) :
    s.sys.co = .waitP ∧ s.sys.cs ≠ .done ∧ .endMark ∉ s.sys.fifo := by
  obtain ⟨hidle, hdone⟩ := hp
  have hco := h.started_of_producer hidle
  have hend := mt (h.done_iff hco).2 hdone
  rw [not_or] at hend
  refine ⟨?_, hend.2, hend.1⟩
  cases hc : s.sys.co with
  | idle => exact absurd hc hco
  | waitP => rfl
  | waitC => exact absurd (h.joined_producer hc) hdone
  | exited => exact absurd (h.exited_done hc).1 hdone

theorem RunInv.status_eq_none {s : State} (h : RunInv s) (hco : s.sys.co ≠ .exited) : s.sys.status = none := by
  by_contra hs
  exact hco (h.status_exited hs)

/-! ## One change at a time -/

/-- Reset reaches a state of the invariant, whatever the configuration (70_reset_and_hazards.md R520). -/
theorem runInv_of_reset {s : State} (hsys : s.sys = Sys.reset) (hport : s.pushPort = none) : RunInv s where
  fifo_le := by rw [hsys]; exact Nat.zero_le _
  end_last := by rw [hsys]; exact fun _ => rfl
  done_iff := by rw [hsys]; exact fun h => absurd rfl h
  consumer_done := by rw [hsys]; exact nofun
  exited_done := by rw [hsys]; exact nofun
  status_exited := by rw [hsys]; exact fun h => absurd rfl h
  scanning := by rw [hsys]; exact nofun
  block_sized := by rw [hsys]; exact fun h => absurd rfl h
  held_block := by rw [hsys]; exact nofun
  producer_idle := by rw [hsys]; exact iff_of_true rfl rfl
  consumer_idle := by rw [hsys]; exact iff_of_true rfl rfl
  joined_producer := by rw [hsys]; exact nofun
  fifo_typed := by rw [hsys]; exact nofun
  held_typed := by rw [hsys]; exact nofun
  scan_typed := by rw [hsys]; exact nofun
  port_typed := by rw [hport]; exact nofun
  acq_err_stops := by rw [hsys]; exact nofun
  status_value := by rw [hsys]; exact nofun
  out_df17 := by rw [hsys]; exact nofun
  idle_clean := by rw [hsys]; exact fun _ => ⟨rfl, rfl⟩

/-- Before START the FIFO may hold anything that fits it (46_fifo.md R396). -/
theorem RunInv.setFifo_of_idle {s : State} (h : RunInv s) (hco : s.sys.co = .idle) {q : List Entry}
    (hlen : q.length ≤ s.cfg.k) (hq : ∀ e ∈ q, e.wf = true) : RunInv (s.setFifo q) :=
  { h with
    fifo_le := hlen
    end_last := fun hn => absurd hco hn
    done_iff := fun hn => absurd hco hn
    consumer_done := fun hd => nomatch hd.symm.trans (h.consumer_idle.2 hco)
    block_sized := fun hn => absurd hco hn
    fifo_typed := hq }

theorem RunInv.push_of_idle {s : State} (h : RunInv s) (hco : s.sys.co = .idle) {e : Entry} (he : e.wf = true)
    (hroom : s.sys.fifo.length < s.cfg.k) : RunInv (s.setFifo (s.sys.fifo ++ [e])) := by
  refine h.setFifo_of_idle hco (by rw [List.length_append]; exact hroom) fun a ha => ?_
  rcases List.mem_append.1 ha with ha | ha
  · exact h.fifo_typed a ha
  · rwa [List.mem_singleton.1 ha]

theorem RunInv.pop_of_idle {s : State} (h : RunInv s) (hco : s.sys.co = .idle) {e : Entry} {q : List Entry}
    (hq : s.sys.fifo = e :: q) : RunInv (s.setFifo q) := by
  have hle := h.fifo_le
  have htyped := h.fifo_typed
  rw [hq] at hle htyped
  exact h.setFifo_of_idle hco (Nat.le_of_succ_le hle) fun a ha => htyped a (List.mem_cons_of_mem e ha)

theorem RunInv.setPushPort {s : State} (h : RunInv s) {p : Option Entry} (hp : ∀ e, p = some e → e.wf = true) :
    RunInv (s.setPushPort p) :=
  { h with port_typed := hp }

theorem RunInv.setCancel {s : State} (h : RunInv s) (v : Bool) : RunInv (s.setCancel v) := { h with }

/-- The running producer goes on to another running state. -/
theorem RunInv.setPs {s : State} (h : RunInv s) (hp : ProducerRuns s) {v : ProdState} (hidle : v ≠ .idle)
    (hdone : v ≠ .done)
    (hheld : ∀ e, v = .push e → (∃ mb, e = .data mb ∧ 2 * mb.length = s.cfg.blockBytes) ∧ e.wf = true)
    (hacq : s.sys.acqErr = true → v = .stop) : RunInv (s.setPs v) := by
  obtain ⟨hco, hcs, hend⟩ := h.of_producerRuns hp
  exact { h with
    done_iff := fun _ => iff_of_false hdone (not_or.2 ⟨hend, hcs⟩)
    consumer_done := fun hd => absurd hd hcs
    exited_done := fun he => nomatch hco.symm.trans he
    held_block := fun e he => (hheld e he).1
    producer_idle := iff_of_false hidle fun hi => nomatch hco.symm.trans hi
    joined_producer := fun hw => nomatch hco.symm.trans hw
    held_typed := fun e he => (hheld e he).2
    acq_err_stops := fun ha => .inl (hacq ha) }

theorem RunInv.acqErr_eq_false {s : State} (h : RunInv s) (hstop : s.sys.ps ≠ .stop) (hdone : s.sys.ps ≠ .done) :
    ¬ s.sys.acqErr = true := fun ha => (h.acq_err_stops ha).elim hstop hdone

theorem RunInv.setAcqErr {s : State} (h : RunInv s) (hps : s.sys.ps = .stop) : RunInv (s.setAcqErr true) := by
  obtain ⟨hco, _, _⟩ := h.of_producerRuns (producerRuns_of_eq hps nofun nofun)
  have hstatus := h.status_eq_none (hco.trans_ne nofun)
  exact { h with
    acq_err_stops := fun _ => .inl hps
    status_value := fun v hv => nomatch hstatus.symm.trans hv
    idle_clean := fun hi => nomatch hco.symm.trans hi }

/-- The running producer's block joins the FIFO (47_pipeline.md R434). -/
theorem RunInv.appendData {s : State} (h : RunInv s) (hp : ProducerRuns s) (hroom : s.sys.fifo.length < s.cfg.k)
    {mb : List Nat} (hsize : 2 * mb.length = s.cfg.blockBytes) (hmb : Entry.wf (.data mb) = true) :
    RunInv (s.setFifo (s.sys.fifo ++ [.data mb])) := by
  obtain ⟨hco, hcs, hend⟩ := h.of_producerRuns hp
  have hstarted : s.sys.co ≠ .idle := hco.trans_ne nofun
  have hend' : .endMark ∉ s.sys.fifo ++ [.data mb] := by
    rw [List.mem_append, List.mem_singleton, not_or]
    exact ⟨hend, nofun⟩
  exact { h with
    fifo_le := by rw [State.setFifo_fifo, List.length_append]; exact hroom
    end_last := fun _ => endLast_append hend _
    done_iff := fun _ => iff_of_false hp.2 (not_or.2 ⟨hend', hcs⟩)
    consumer_done := fun hd => absurd hd hcs
    block_sized := fun _ mb' hm => by
      rcases List.mem_append.1 hm with hm | hm
      · exact h.block_sized hstarted mb' hm
      · cases List.mem_singleton.1 hm
        exact hsize
    fifo_typed := fun e he => by
      rcases List.mem_append.1 he with he | he
      · exact h.fifo_typed e he
      · cases List.mem_singleton.1 he
        exact hmb }

/-- The running producer pushes `End` and is done (47_pipeline.md R435). -/
theorem RunInv.appendEnd {s : State} (h : RunInv s) (hp : ProducerRuns s) (hroom : s.sys.fifo.length < s.cfg.k) :
    RunInv ((s.setFifo (s.sys.fifo ++ [.endMark])).setPs .done) := by
  obtain ⟨hco, hcs, hend⟩ := h.of_producerRuns hp
  have hstarted : s.sys.co ≠ .idle := hco.trans_ne nofun
  exact { h with
    fifo_le := by
      rw [State.setPs_fifo, State.setFifo_fifo, List.length_append]
      exact hroom
    end_last := fun _ => endLast_append hend _
    done_iff := fun _ => iff_of_true rfl (.inl (List.mem_append_right _ (List.mem_singleton.2 rfl)))
    consumer_done := fun hd => absurd hd hcs
    exited_done := fun he => nomatch hco.symm.trans he
    block_sized := fun _ mb hm => by
      rcases List.mem_append.1 hm with hm | hm
      · exact h.block_sized hstarted mb hm
      · cases List.mem_singleton.1 hm
    held_block := nofun
    producer_idle := iff_of_false nofun hstarted
    joined_producer := fun _ => rfl
    fifo_typed := fun e he => by
      rcases List.mem_append.1 he with he | he
      · exact h.fifo_typed e he
      · cases List.mem_singleton.1 he
        rfl
    held_typed := nofun
    acq_err_stops := fun _ => .inr rfl }

/-- The consumer takes a block off the FIFO (47_pipeline.md R436). -/
theorem RunInv.dropData {s : State} (h : RunInv s) (hc : ConsumerRuns s) {mb : List Nat} {q : List Entry}
    (hq : s.sys.fifo = .data mb :: q) : RunInv (s.setFifo q) := by
  have hstarted := h.started_of_consumer hc.1
  have hle := h.fifo_le
  have hlast := h.end_last hstarted
  have hdone := h.done_iff hstarted
  have hsized := h.block_sized hstarted
  have htyped := h.fifo_typed
  rw [hq] at hle hlast hdone hsized htyped
  rw [List.mem_cons, or_iff_right (by exact nofun : Entry.endMark ≠ .data mb)] at hdone
  exact { h with
    fifo_le := Nat.le_of_succ_le hle
    end_last := fun _ => hlast
    done_iff := fun _ => hdone
    consumer_done := fun hd => absurd hd hc.2
    block_sized := fun _ mb' hm => hsized mb' (List.mem_cons_of_mem _ hm)
    fifo_typed := fun e he => htyped e (List.mem_cons_of_mem _ he) }

/-- The consumer takes `End`, which is the last entry, and is done (47_pipeline.md R436). -/
theorem RunInv.dropEnd {s : State} (h : RunInv s) (hc : ConsumerRuns s) {q : List Entry}
    (hq : s.sys.fifo = .endMark :: q) : RunInv ((s.setFifo q).setCs .done) := by
  have hstarted := h.started_of_consumer hc.1
  have hlast := h.end_last hstarted
  rw [hq, endLast_endMark] at hlast
  subst hlast
  have hps : s.sys.ps = .done := (h.done_iff hstarted).2 (.inl (by rw [hq]; exact List.mem_singleton.2 rfl))
  exact { h with
    fifo_le := Nat.zero_le _
    end_last := fun _ => rfl
    done_iff := fun _ => iff_of_true hps (.inr rfl)
    consumer_done := fun _ => ⟨hps, rfl⟩
    exited_done := fun he => absurd (h.exited_done he).2.1 hc.2
    scanning := nofun
    block_sized := nofun
    consumer_idle := iff_of_false nofun hstarted
    fifo_typed := nofun
    scan_typed := nofun }

/-- The running consumer goes on to another running state. -/
theorem RunInv.setCs {s : State} (h : RunInv s) (hc : ConsumerRuns s) {v : ConsState} (hidle : v ≠ .idle)
    (hdone : v ≠ .done) (hscan : ∀ mb st i, v = .scan mb st i → (winLen ≤ mb.length ∧
      bufferStats s.cfg.varDiv mb = .ok st ∧ i + 239 ≤ mb.length) ∧ seqBelow magW mb = true) : RunInv (s.setCs v) :=
  { h with
    done_iff := fun hstarted => (h.done_iff hstarted).trans
      (or_congr_right (iff_of_false hc.2 hdone))
    consumer_done := fun hd => absurd hd hdone
    exited_done := fun he => absurd (h.exited_done he).2.1 hc.2
    scanning := fun mb st i hv => (hscan mb st i hv).1
    consumer_idle := iff_of_false hidle (h.started_of_consumer hc.1)
    scan_typed := fun mb st i hv => (hscan mb st i hv).2 }

theorem RunInv.appendOut {s : State} (h : RunInv s) (hstarted : s.sys.co ≠ .idle) {l : List Packet}
    (hl : ∀ p ∈ l, p.downlinkFormat = 17) : RunInv (s.setOut (s.sys.out ++ l)) :=
  { h with
    out_df17 := fun p hp => (List.mem_append.1 hp).elim (h.out_df17 p) (hl p)
    idle_clean := fun hi => absurd hi hstarted }

theorem RunInv.setUnits {s : State} (h : RunInv s) (u : Units) : RunInv (s.setUnits u) := h.of_same rfl rfl rfl

theorem RunInv.setSched {s : State} (h : RunInv s) (evs : List Event) : RunInv (s.setSched evs) :=
  h.of_same rfl rfl rfl

theorem RunInv.addReply {s : State} (h : RunInv s) (op : BitVec 8) (v : Result) : RunInv (s.addReply op v) :=
  h.of_same rfl rfl rfl

theorem RunInv.setPopPort {s : State} (h : RunInv s) (v : Bool) : RunInv (s.setPopPort v) := h.of_same rfl rfl rfl

theorem RunInv.raise {s : State} (h : RunInv s) (op : BitVec 8) (f : Raise) : RunInv (s.raise op f) := by
  obtain ⟨hcfg, hport, _, _, _, _, hsys⟩ := s.raise_frame op f
  exact h.of_same hcfg hport hsys

/-- START finds an idle machine with an empty FIFO (47_pipeline.md R430). -/
theorem RunInv.start {s : State} (h : RunInv s) (hco : s.sys.co = .idle) (hq : s.sys.fifo = []) :
    RunInv (((s.setCo .waitP).setPs .poll).setCs .pop) := by
  obtain ⟨_, hacq⟩ := h.idle_clean hco
  have hstatus := h.status_eq_none (hco.trans_ne nofun)
  exact { h with
    end_last := fun _ => by simp only [State.setCs_fifo, State.setPs_fifo, State.setCo_fifo, hq]; rfl
    done_iff := fun _ => iff_of_false nofun (not_or.2 ⟨by
      simp only [State.setCs_fifo, State.setPs_fifo, State.setCo_fifo, hq]; exact nofun, nofun⟩)
    consumer_done := nofun
    exited_done := nofun
    status_exited := fun hs => absurd hstatus hs
    scanning := nofun
    block_sized := fun _ mb hm => by
      simp only [State.setCs_fifo, State.setPs_fifo, State.setCo_fifo, hq] at hm
      cases hm
    held_block := nofun
    producer_idle := iff_of_false nofun nofun
    consumer_idle := iff_of_false nofun nofun
    joined_producer := nofun
    held_typed := nofun
    scan_typed := nofun
    acq_err_stops := fun ha => nomatch hacq.symm.trans ha
    idle_clean := nofun }

theorem RunInv.joinP {s : State} (h : RunInv s) (hco : s.sys.co = .waitP) (hps : s.sys.ps = .done) :
    RunInv (s.setCo .waitC) := by
  have hstarted : s.sys.co ≠ .idle := hco.trans_ne nofun
  have hstatus := h.status_eq_none (hco.trans_ne nofun)
  exact { h with
    end_last := fun _ => h.end_last hstarted
    done_iff := fun _ => h.done_iff hstarted
    exited_done := nofun
    status_exited := fun hs => absurd hstatus hs
    block_sized := fun _ => h.block_sized hstarted
    producer_idle := iff_of_false (mt h.producer_idle.1 hstarted) nofun
    consumer_idle := iff_of_false (mt h.consumer_idle.1 hstarted) nofun
    joined_producer := fun _ => hps
    idle_clean := nofun }

theorem RunInv.joinC {s : State} (h : RunInv s) (hco : s.sys.co = .waitC) (hcs : s.sys.cs = .done) :
    RunInv ((s.setStatus (some (if s.sys.acqErr then .acqError else .ok))).setCo .exited) := by
  have hstarted : s.sys.co ≠ .idle := hco.trans_ne nofun
  exact { h with
    end_last := fun _ => h.end_last hstarted
    done_iff := fun _ => h.done_iff hstarted
    exited_done := fun _ => ⟨h.joined_producer hco, hcs, nofun⟩
    status_exited := fun _ => rfl
    block_sized := fun _ => h.block_sized hstarted
    producer_idle := iff_of_false (mt h.producer_idle.1 hstarted) nofun
    consumer_idle := iff_of_false (mt h.consumer_idle.1 hstarted) nofun
    joined_producer := nofun
    status_value := fun v hv => (Option.some.inj hv).symm
    idle_clean := nofun }

/-! ## The buffers of a run -/

/-- A delivered block is a buffer of `u19` magnitudes, half as long (00_scope.md R15). -/
theorem magBlock_typed {cfg : Params} {blk mb : List Nat} (hlen : blk.length = cfg.blockBytes)
    (h : magBlock cfg.c blk = .ok mb) : 2 * mb.length = cfg.blockBytes ∧ Entry.wf (.data mb) = true := by
  obtain ⟨hb, heven, rfl⟩ := magBlock_eq_ok.1 h
  refine ⟨by rw [pairMagnitudes_length]; omega, seqBelow_iff.2 fun x hx => ?_⟩
  have hbytes := seqBelow_iff.1 hb
  have hle : x ≤ 520200 := by
    clear h heven hlen hb
    fun_induction pairMagnitudes cfg.c blk with
    | case1 i q rest ih =>
      simp only [List.forall_mem_cons] at hbytes
      obtain ⟨hi, hq, hrest⟩ := hbytes
      rcases List.mem_cons.1 hx with rfl | hx
      · exact magnitude_le (params_c_le cfg) hi hq
      · exact ih hx hrest
    | case2 => cases hx
  omega

/-- The statistics of a scan in progress are well formed, so its candidates raise nothing (47_pipeline.md R424). -/
theorem RunInv.scan_stats {s : State} (h : RunInv s) {mb : List Nat} {st : Stats} {i : Nat}
    (hcs : s.sys.cs = .scan mb st i) : st = statsOf mb ∧ checkStats s.cfg.varDiv st = .ok () := by
  obtain ⟨hlong, hst, _⟩ := h.scanning mb st i hcs
  obtain rfl := bufferStats_eq_ok hst
  exact ⟨rfl, checkStats_statsOf (le_trans (by decide) hlong)⟩

/-! ## Every step keeps the invariant -/

theorem RunInv.poll {s : State} (h : RunInv s) (hps : s.sys.ps = .poll) :
    RunInv (s.setPs (if s.sys.cancel then .stop else .read)) := by
  have hp : ProducerRuns s := producerRuns_of_eq hps nofun nofun
  have hacq := h.acqErr_eq_false (hps.trans_ne nofun) hp.2
  split
  · exact h.setPs hp nofun nofun nofun fun _ => rfl
  · exact h.setPs hp nofun nofun nofun fun ha => absurd ha hacq

theorem RunInv.pushHeld {s : State} (h : RunInv s) {e : Entry} (hps : s.sys.ps = .push e)
    (hroom : s.sys.fifo.length < s.cfg.k) : RunInv ((s.setFifo (s.sys.fifo ++ [e])).setPs .poll) := by
  have hp : ProducerRuns s := producerRuns_of_eq hps nofun nofun
  have hacq := h.acqErr_eq_false (hps.trans_ne nofun) hp.2
  obtain ⟨mb, rfl, hsize⟩ := h.held_block e hps
  have hqueued := h.appendData hp hroom hsize (h.held_typed _ hps)
  exact hqueued.setPs hp nofun nofun nofun fun ha => absurd ha hacq

theorem RunInv.srcOk {s : State} (h : RunInv s) {blk mb : List Nat} (hps : s.sys.ps = .read)
    (hlen : blk.length = s.cfg.blockBytes) (hmb : magBlock s.cfg.c blk = .ok mb) :
    RunInv (s.setPs (.push (.data mb))) := by
  have hp : ProducerRuns s := producerRuns_of_eq hps nofun nofun
  have hacq := h.acqErr_eq_false (hps.trans_ne nofun) hp.2
  obtain ⟨hsize, htyped⟩ := magBlock_typed hlen hmb
  refine h.setPs hp nofun nofun (fun e he => ?_) fun ha => absurd ha hacq
  cases he
  exact ⟨⟨mb, rfl, hsize⟩, htyped⟩

theorem RunInv.srcErr {s : State} (h : RunInv s) (hps : s.sys.ps = .read) :
    RunInv ((s.setAcqErr true).setPs .stop) := by
  have hstop := h.setPs (producerRuns_of_eq hps nofun nofun) (v := .stop) nofun nofun nofun fun _ => rfl
  exact hstop.setAcqErr rfl

theorem RunInv.popLong {s : State} (h : RunInv s) {mb : List Nat} {q : List Entry} (hcs : s.sys.cs = .pop)
    (hq : s.sys.fifo = .data mb :: q) (hlong : 240 ≤ mb.length) :
    RunInv (((s.setFifo q).setUnits (s.units.withStats (statsOf mb))).setCs (.scan mb (statsOf mb) 0)) := by
  have hc : ConsumerRuns s := consumerRuns_of_eq hcs nofun nofun
  have htyped : Entry.wf (.data mb) = true := h.fifo_typed _ (by rw [hq]; exact List.mem_cons_self)
  refine ((h.dropData hc hq).setUnits _).setCs hc nofun nofun fun mb' st i hv => ?_
  cases hv
  exact ⟨⟨hlong, bufferStats_ok (by omega), by omega⟩, htyped⟩

theorem RunInv.scan {s : State} (h : RunInv s) {mb : List Nat} {st : Stats} {i : Nat} (hcs : s.sys.cs = .scan mb st i)
    (hw : i + 240 ≤ mb.length) (u : Units) {p : Option Packet} (hp : ∀ a, p = some a → a.downlinkFormat = 17) :
    RunInv (((s.setUnits u).setOut (s.sys.out ++ p.toList)).setCs (.scan mb st (i + 1))) := by
  have hc : ConsumerRuns s := consumerRuns_of_scan hcs
  obtain ⟨hlong, hst, _⟩ := h.scanning mb st i hcs
  have hout := (h.setUnits u).appendOut (h.started_of_consumer hc.1) fun a ha => hp a (Option.mem_toList.1 ha)
  refine hout.setCs hc nofun nofun fun mb' st' j hv => ?_
  cases hv
  exact ⟨⟨hlong, hst, by omega⟩, h.scan_typed mb st i hcs⟩

theorem Move.runInv {i : Instr} {s t : State} (h : RunInv s) (m : Move i s t) : RunInv t := by
  cases m with
  | reply v u => exact (h.setUnits u).addReply _ v
  | raise => exact h.raise _ _
  | wait => exact h
  | push he hco hroom => exact (h.push_of_idle hco he hroom).addReply _ _
  | pushWait he => exact h.setPushPort fun e heq => Option.some.inj heq ▸ he
  | pop hco hq => exact (h.pop_of_idle hco hq).addReply _ _
  | popWait => exact h.setPopPort true
  | poll hps => exact h.poll hps
  | pushHeld hps hroom => exact h.pushHeld hps hroom
  | pushEnd hps hroom => exact h.appendEnd (producerRuns_of_eq hps nofun nofun) hroom
  | popEnd hcs hq => exact h.dropEnd (consumerRuns_of_eq hcs nofun nofun) hq
  | popShort hcs hq => exact h.dropData (consumerRuns_of_eq hcs nofun nofun) hq
  | popLong hcs hq hlong => exact h.popLong hcs hq hlong
  | scan hcs hw _ => exact h.scan hcs hw _ fun _ => downlinkFormat_of_candidatePacket
  | scanEnd hcs => exact h.setCs (consumerRuns_of_scan hcs) nofun nofun nofun
  | start hco hq => exact h.start hco hq
  | joinP hco hps => exact h.joinP hco hps
  | joinC hco hcs => exact h.joinC hco hcs
  | srcOk hps hlen hmb => exact h.srcOk hps hlen hmb
  | srcErr hps => exact h.srcErr hps
  | cancel => exact h.setCancel true

theorem Move.cfg_eq {i : Instr} {s t : State} (m : Move i s t) : t.cfg = s.cfg := by
  cases m with
  | raise => exact (s.raise_frame _ _).1
  | _ => rfl

theorem Action.runInv {o : Option Instr} {s t : State} (h : RunInv s) (a : Action o s t) : RunInv t := by
  cases a with
  | stay => exact h
  | refuse op f => exact h.raise op f
  | move _ m => exact m.runInv h
  | portPush _ hco hport hroom =>
    exact ((h.setPushPort (p := none) nofun).push_of_idle hco (h.port_typed _ hport) hroom).addReply _ _
  | portPop _ hco hq => exact ((h.setPopPort false).pop_of_idle hco hq).addReply _ _

theorem Action.cfg_eq {o : Option Instr} {s t : State} (a : Action o s t) : t.cfg = s.cfg := by
  cases a with
  | refuse op f => exact (s.raise_frame op f).1
  | move _ m => exact m.cfg_eq
  | _ => rfl

/-- Settles O53: reset is `Sys.reset` with no waiting transaction. -/
theorem runInvAtReset : Obligations.RunInvAtReset := by
  unfold Obligations.RunInvAtReset
  exact fun cfg evs => runInv_of_reset rfl rfl

theorem step_of_reset {s t : State} (h : step s = .next t) (hreset : s.sched.head? = some .reset) :
    t = (s.setSched s.sched.tail).afterReset := by
  obtain ⟨rest, hs⟩ := List.head?_eq_some_iff.1 hreset
  rw [step_cons hs, takeEvent_reset] at h
  injection h with h
  rw [hs]
  exact h.symm

/-- Settles O54: a step is a reset or an action. -/
theorem stepKeepsRunInv : Obligations.StepKeepsRunInv := by
  unfold Obligations.StepKeepsRunInv
  intro s t h hstep
  by_cases hreset : s.sched.head? = some .reset
  · rw [step_of_reset hstep hreset]
    exact ⟨runInv_of_reset rfl rfl, rfl⟩
  · have a := step_action hstep hreset
    exact ⟨a.runInv (h.setSched _), a.cfg_eq⟩

end Sys2Proof.Machine
end

section
/-! What follows from the invariant for a run (47_pipeline.md R424, R431, R443, R447, R448, R454): no raise, the bound
on draining, what a stuck run waits for, and the shutdown latency. -/

namespace Sys2Proof.Machine

/-! ## No raise -/

theorem agentStep_port {i : Instr} (hi : i ∈ agentSteps) : i.port = .step := by
  simp only [agentSteps, List.mem_cons, List.not_mem_nil, or_false] at hi
  rcases hi with rfl | rfl | rfl | rfl | rfl | rfl | rfl
  all_goals rfl

theorem mem_agentSteps_of_enabled {i : Instr} {s : State} (h : agentEnabled i s) : i ∈ agentSteps := by
  obtain ⟨_, hen⟩ := h
  cases i
  all_goals first | decide | exact hen.elim

theorem RunInv.not_mayRaise {s : State} (h : RunInv s) {i : Instr} (hi : i ∈ agentSteps) (f : Raise) :
    ¬ MayRaise i s f := by
  have hport := agentStep_port hi
  intro hmay
  cases i with
  | cScan =>
    obtain ⟨mb, st, j, hcs, _, hst⟩ := hmay
    exact hst (h.scan_stats hcs).2
  | start | hSrcOk _ | hSrcErr | hCancel => cases hport
  | _ => exact nomatch hmay.symm.trans hport

theorem not_mayRaise_of_bytes {s : State} {blk : List Nat} (hb : ∀ b ∈ blk, b < 256) (f : Raise) :
    ¬ MayRaise (.hSrcOk blk) s f := by
  rintro ⟨_, hlen, hmb⟩
  have heven := params_blockBytes_mod_four s.cfg
  rw [magBlock_ok (seqBelow_iff.2 hb) (by omega)] at hmb
  cases hmb

/-- Settles O57: the statistics of a scan are a buffer's, and a block of bytes has magnitudes. -/
theorem pipelineNeverFaults : Obligations.PipelineNeverFaults := by
  unfold Obligations.PipelineNeverFaults
  intro i s t h hl hi hexec
  rcases (exec_next hl hexec).raise_or_fault_eq with ⟨f, _, hmay, _⟩ | hsame
  · rcases hi with hi | rfl | rfl | ⟨blk, rfl, hb⟩
    · exact absurd hmay (h.not_mayRaise hi f)
    · cases hmay
    · cases hmay
    · exact absurd hmay (not_mayRaise_of_bytes hb f)
  · exact hsame.trans hl

/-! ## Draining -/

/-- The joins the coordinator has left. -/
def coWork : CoordState → Nat
  | .idle => 0
  | .waitP => 2
  | .waitC => 1
  | .exited => 0

/-- The bound on the work the producer's state stands for, for blocks of `b` bytes. -/
def psWork (b : Nat) : ProdState → Nat
  | .poll => 3
  | .read => b / 2 + 7
  | .push e => entryWork e + 4
  | .stop => 2
  | .idle => 0
  | .done => 0

/-- The candidates the consumer has left, and its return. -/
def csWork : ConsState → Nat
  | .scan mb _ i => mb.length - i + 1
  | .idle => 0
  | .pop => 0
  | .done => 0

def fifoWork (q : List Entry) : Nat := (q.map entryWork).sum

theorem drainWork_eq (s : State) :
    drainWork s = coWork s.sys.co + psWork s.cfg.blockBytes s.sys.ps + csWork s.sys.cs + fifoWork s.sys.fifo := by
  unfold drainWork coWork psWork csWork fifoWork
  congr 3
  · cases s.sys.ps <;> rfl
  · cases s.sys.cs <;> rfl

@[simp] theorem fifoWork_cons (e : Entry) (q : List Entry) : fifoWork (e :: q) = entryWork e + fifoWork q := rfl

@[simp] theorem fifoWork_append_singleton (q : List Entry) (e : Entry) :
    fifoWork (q ++ [e]) = fifoWork q + entryWork e := by simp [fifoWork]

theorem drainWork_raise (s : State) (op : BitVec 8) (f : Raise) : drainWork (s.raise op f) = drainWork s := by
  obtain ⟨hcfg, _, _, _, _, _, hsys⟩ := s.raise_frame op f
  rw [drainWork_eq, drainWork_eq, hsys, hcfg]

/-- The answers of the sample source (47_pipeline.md R432, R433). -/
def IsAnswer (i : Instr) : Prop := i = .hSrcErr ∨ ∃ blk, i = .hSrcOk blk

/-- The moves that must lower the bound: an enabled agent step, and an answer that does not raise. -/
def Lowers (i : Instr) (s t : State) : Prop := Live t ∧ (agentEnabled i s ∨ IsAnswer i)

theorem not_lowers_of_port {i : Instr} {s t : State} (hp : i.port = .cmd) : ¬ Lowers i s t := by
  rintro ⟨_, hen | rfl | ⟨blk, rfl⟩⟩
  · exact nomatch (agentStep_port (mem_agentSteps_of_enabled hen)).symm.trans hp
  · cases hp
  · cases hp

/-- Once cancellation is raised every move of a run lowers the bound, or keeps it and is none of those that must. -/
theorem Move.drainWork_lt_or_eq {i : Instr} {s t : State} (m : Move i s t) (hcancel : s.sys.cancel = true)
    (hstarted : s.sys.co ≠ .idle) :
    drainWork t < drainWork s ∨ (drainWork t = drainWork s ∧ ¬ Lowers i s t) := by
  cases m with
  | reply v u hi => exact .inr ⟨rfl, not_lowers_of_port hi.1⟩
  | raise => exact .inr ⟨drainWork_raise .., fun hlow => s.raise_fault_ne_none _ _ hlow.1⟩
  | wait hi hdis =>
    refine .inr ⟨rfl, ?_⟩
    rintro ⟨_, hen | rfl | ⟨blk, rfl⟩⟩
    · exact hdis hen
    · exact nomatch agentStep_port hi
    · exact nomatch agentStep_port hi
  | push _ hco => exact absurd hco hstarted
  | pushWait _ hco => exact absurd hco hstarted
  | pop hco => exact absurd hco hstarted
  | popWait hco => exact absurd hco hstarted
  | start hco => exact absurd hco hstarted
  | cancel =>
    refine .inr ⟨rfl, ?_⟩
    rintro ⟨_, ⟨_, hen⟩ | hans | ⟨blk, hans⟩⟩
    · exact hen
    · cases hans
    · cases hans
  | poll hps =>
    left
    simp [drainWork_eq, hps, hcancel, psWork]
  | pushHeld hps =>
    left
    simp only [drainWork_eq, State.setPs_co, State.setFifo_co, State.setPs_ps, State.setPs_cs, State.setFifo_cs,
      State.setPs_fifo, State.setFifo_fifo, fifoWork_append_singleton, psWork, hps]
    omega
  | pushEnd hps =>
    left
    simp only [drainWork_eq, State.setPs_co, State.setFifo_co, State.setPs_ps, State.setPs_cs, State.setFifo_cs,
      State.setPs_fifo, State.setFifo_fifo, fifoWork_append_singleton, psWork, entryWork, hps]
    omega
  | popEnd hcs hq =>
    left
    simp [drainWork_eq, hcs, hq, csWork, entryWork]
  | popShort hcs hq =>
    left
    simp [drainWork_eq, hcs, hq, csWork, entryWork]
  | popLong hcs hq =>
    left
    simp only [drainWork_eq, State.setCs_co, State.setUnits_sys, State.setFifo_co, State.setCs_cfg, State.setUnits_cfg,
      State.setFifo_cfg, State.setCs_ps, State.setFifo_ps, State.setCs_cs, State.setCs_fifo, State.setFifo_fifo,
      fifoWork_cons, csWork, entryWork, hcs, hq]
    omega
  | scan hcs hw =>
    left
    simp only [drainWork_eq, State.setCs_co, State.setOut_co, State.setUnits_sys, State.setCs_cfg, State.setOut_cfg,
      State.setUnits_cfg, State.setCs_ps, State.setOut_ps, State.setCs_cs, State.setCs_fifo, State.setOut_fifo, csWork,
      hcs]
    omega
  | scanEnd hcs =>
    left
    simp [drainWork_eq, hcs, csWork]
  | joinP hco =>
    left
    simp [drainWork_eq, hco, coWork]
  | joinC hco =>
    left
    simp [drainWork_eq, hco, coWork]
  | srcOk hps hlen hmb =>
    left
    obtain ⟨hsize, _⟩ := magBlock_typed hlen hmb
    simp only [drainWork_eq, State.setPs_co, State.setPs_ps, State.setPs_cs, State.setPs_fifo, psWork, entryWork, hps]
    omega
  | srcErr hps =>
    left
    simp [drainWork_eq, hps, psWork]

theorem Move.drainWork_lt {i : Instr} {s t : State} (m : Move i s t) (hcancel : s.sys.cancel = true)
    (hstarted : s.sys.co ≠ .idle) (hlow : Lowers i s t) : drainWork t < drainWork s :=
  (m.drainWork_lt_or_eq hcancel hstarted).resolve_right fun hsame => hsame.2 hlow

theorem Move.drainWork_le {i : Instr} {s t : State} (m : Move i s t) (hcancel : s.sys.cancel = true)
    (hstarted : s.sys.co ≠ .idle) : drainWork t ≤ drainWork s :=
  (m.drainWork_lt_or_eq hcancel hstarted).elim le_of_lt fun hsame => hsame.1.le

theorem Action.drainWork_le {o : Option Instr} {s t : State} (a : Action o s t) (hcancel : s.sys.cancel = true)
    (hstarted : s.sys.co ≠ .idle) : drainWork t ≤ drainWork s := by
  cases a with
  | stay => exact le_rfl
  | refuse op f => exact (drainWork_raise s op f).le
  | move _ m => exact m.drainWork_le hcancel hstarted
  | portPush _ hco => exact absurd hco hstarted
  | portPop _ hco => exact absurd hco hstarted

/-- Before START no agent's step is enabled. -/
theorem RunInv.started_of_enabled {s : State} (h : RunInv s) {i : Instr} (hen : agentEnabled i s) :
    s.sys.co ≠ .idle := by
  obtain ⟨_, hen⟩ := hen
  cases i with
  | pPoll => exact h.started_of_producer (hen.trans_ne nofun)
  | pPush =>
    obtain ⟨⟨e, hps⟩, _⟩ := hen
    exact h.started_of_producer (hps.trans_ne nofun)
  | pEnd => exact h.started_of_producer (hen.1.trans_ne nofun)
  | cPop => exact h.started_of_consumer (hen.1.trans_ne nofun)
  | cScan =>
    obtain ⟨mb, st, j, hcs⟩ := hen
    exact h.started_of_consumer (hcs.trans_ne nofun)
  | coJoinP => exact hen.1.trans_ne nofun
  | coJoinC => exact hen.1.trans_ne nofun
  | _ => exact hen.elim

theorem Move.of_hSrcErr {s t : State} (m : Move .hSrcErr s t) :
    s.sys.ps = .read ∧ t = (s.setAcqErr true).setPs .stop := by
  cases m with
  | reply _ _ hi => cases hi.1
  | raise hmay => cases hmay
  | wait hi => exact nomatch agentStep_port hi
  | srcErr hps => exact ⟨hps, rfl⟩

theorem Move.read_of_answer {i : Instr} {s t : State} (m : Move i s t) (hi : IsAnswer i) : s.sys.ps = .read := by
  rcases hi with rfl | ⟨blk, rfl⟩
  · exact m.of_hSrcErr.1
  · cases m with
    | reply _ _ hi => cases hi.1
    | raise hmay => exact hmay.1
    | wait hi => exact nomatch agentStep_port hi
    | srcOk hps => exact hps

theorem finish_isNext (op : BitVec 8) (s : State) (r : Except Raise State) : ∃ t, finish op s r = .next t := by
  cases r with
  | ok t => exact ⟨t, rfl⟩
  | error f => exact ⟨s.raise op f, rfl⟩

/-- An agent's step is never refused. -/
theorem exec_agentStep_isNext {i : Instr} (hi : i ∈ agentSteps) (s : State) : ∃ t, exec i s = .next t := by
  by_cases hen : agentEnabled i s
  · obtain ⟨hl, hcase⟩ := hen
    cases i with
    | pPoll => exact ⟨_, exec_pPoll_of_poll hl hcase⟩
    | pPush =>
      obtain ⟨⟨e, hps⟩, hroom⟩ := hcase
      exact ⟨_, exec_pPush_of_room hl hps hroom⟩
    | pEnd => exact ⟨_, exec_pEnd_of_room hl hcase.1 hcase.2⟩
    | cPop =>
      obtain ⟨e, q, hq⟩ := List.exists_cons_of_length_pos hcase.2
      rw [exec_cPop_of_entry hl hcase.1 hq]
      exact finish_isNext ..
    | cScan =>
      obtain ⟨mb, st, j, hcs⟩ := hcase
      by_cases hw : j + 240 ≤ mb.length
      · rw [exec_cScan_of_fits hl hcs hw]
        exact finish_isNext ..
      · exact ⟨_, exec_cScan_of_end hl hcs (Nat.lt_of_not_le hw)⟩
    | coJoinP => exact ⟨_, execCoJoinP_of_done hl hcase.1 hcase.2⟩
    | coJoinC => exact ⟨_, exec_coJoinC_of_done hl hcase.1 hcase.2⟩
    | _ => exact hcase.elim
  · exact ⟨s, disabledAgentStepWaits i s hi hen⟩

/-- Settles O58: the work is counted per side, and every move is one of `Move`. -/
theorem drainTerminates : Obligations.DrainTerminates := by
  unfold Obligations.DrainTerminates
  refine ⟨fun i s h hcancel hen => ?_, fun i s t h hcancel hi hexec hlive => ?_,
    fun s t h hcancel hstarted hreset hstep => ?_⟩
  · have hi := mem_agentSteps_of_enabled hen
    have hstarted := h.started_of_enabled hen
    obtain ⟨t, hexec⟩ := exec_agentStep_isNext hi s
    have hlive := pipelineNeverFaults i s t h hen.1 (.inl hi) hexec
    exact ⟨t, hexec, (exec_next hen.1 hexec).drainWork_lt hcancel hstarted ⟨hlive, .inl hen⟩⟩
  · by_cases hl : Live s
    · have m := exec_next hl hexec
      exact m.drainWork_lt hcancel (h.started_of_producer ((m.read_of_answer hi).trans_ne nofun)) ⟨hlive, .inr hi⟩
    · rw [exec_of_fault hl] at hexec
      injection hexec with hexec
      exact absurd (hexec ▸ hlive) hl
  · exact (step_action hstep hreset).drainWork_le hcancel hstarted

/-! ## A stuck run -/

/-- A stuck consumer has emptied the FIFO and waits for more: when it is done, a join is enabled. -/
theorem RunInv.consumer_of_stuck {s : State} (h : RunInv s) (hstarted : s.sys.co ≠ .idle) (hstuck : Stuck s) :
    s.sys.cs = .pop ∧ s.sys.fifo = [] := by
  obtain ⟨hl, hrunning, hno⟩ := hstuck
  cases hcs : s.sys.cs with
  | idle => exact absurd (h.consumer_idle.1 hcs) hstarted
  | scan mb st i => exact absurd ⟨hl, mb, st, i, hcs⟩ (hno .cScan (by decide))
  | done =>
    obtain ⟨hps, _⟩ := h.consumer_done hcs
    cases hco : s.sys.co with
    | idle => exact absurd hco hstarted
    | waitP => exact absurd ⟨hl, hco, hps⟩ (hno .coJoinP (by decide))
    | waitC => exact absurd ⟨hl, hco, hcs⟩ (hno .coJoinC (by decide))
    | exited => exact absurd hco hrunning
  | pop =>
    refine ⟨rfl, List.eq_nil_of_length_eq_zero (Nat.eq_zero_of_not_pos fun hpos => ?_)⟩
    exact hno .cPop (by decide) ⟨hl, hcs, hpos⟩

/-- With the FIFO empty the producer has room, so only an outstanding read stops it. -/
theorem RunInv.producer_of_stuck {s : State} (h : RunInv s) (hstarted : s.sys.co ≠ .idle) (hstuck : Stuck s) :
    s.sys.ps = .read := by
  obtain ⟨hcs, hq⟩ := h.consumer_of_stuck hstarted hstuck
  obtain ⟨hl, _, hno⟩ := hstuck
  have hroom : s.sys.fifo.length < s.cfg.k := by
    rw [hq]
    exact params_one_le_k s.cfg
  cases hps : s.sys.ps with
  | idle => exact absurd (h.producer_idle.1 hps) hstarted
  | poll => exact absurd ⟨hl, hps⟩ (hno .pPoll (by decide))
  | read => rfl
  | push e => exact absurd ⟨hl, ⟨e, hps⟩, hroom⟩ (hno .pPush (by decide))
  | stop => exact absurd ⟨hl, hps, hroom⟩ (hno .pEnd (by decide))
  | done =>
    have hend := (h.done_iff hstarted).1 hps
    rw [hq, hcs] at hend
    rcases hend with hend | hend
    · cases hend
    · cases hend

theorem stuck_of_silent_source {s : State} (hl : Live s) (hps : s.sys.ps = .read) (hcs : s.sys.cs = .pop)
    (hq : s.sys.fifo = []) (hco : s.sys.co = .waitP) : Stuck s := by
  refine ⟨hl, hco.trans_ne nofun, fun i hi hen => ?_⟩
  obtain ⟨_, hen⟩ := hen
  cases i with
  | pPoll => exact nomatch hps.symm.trans hen
  | pPush =>
    obtain ⟨⟨e, he⟩, _⟩ := hen
    exact nomatch hps.symm.trans he
  | pEnd => exact nomatch hps.symm.trans hen.1
  | cPop =>
    obtain ⟨_, hpos⟩ := hen
    rw [hq] at hpos
    exact Nat.not_lt_zero 0 hpos
  | cScan =>
    obtain ⟨mb, st, j, hscan⟩ := hen
    exact nomatch hcs.symm.trans hscan
  | coJoinP => exact nomatch hps.symm.trans hen.2
  | coJoinC => exact nomatch hcs.symm.trans hen.2
  | _ => exact hen.elim

/-- Settles O59: each other state of a side enables one of its steps, or the join that waits for it. -/
theorem stuckOnlyOnSilentSource : Obligations.StuckOnlyOnSilentSource := by
  unfold Obligations.StuckOnlyOnSilentSource
  intro s h hstarted
  constructor
  · intro hstuck
    obtain ⟨hcs, hq⟩ := h.consumer_of_stuck hstarted hstuck
    have hps := h.producer_of_stuck hstarted hstuck
    obtain ⟨hco, _⟩ := h.of_producerRuns (producerRuns_of_eq hps nofun nofun)
    exact ⟨hstuck.1, hps, hcs, hq, hco⟩
  · rintro ⟨hl, hps, hcs, hq, hco⟩
    exact stuck_of_silent_source hl hps hcs hq hco

/-! ## Shutdown -/

theorem State.raise_keeps (s : State) (op : BitVec 8) (f : Raise) :
    (s.raise op f).sys.cancel = s.sys.cancel ∧ (s.raise op f).sys.ps = s.sys.ps := by
  obtain ⟨_, _, _, _, _, _, hsys⟩ := s.raise_frame op f
  rw [hsys]
  exact ⟨rfl, rfl⟩

/-- Only the poll issues a read, and it reads cancellation (47_pipeline.md R431). -/
theorem Move.no_new_read {i : Instr} {s t : State} (m : Move i s t) (hcancel : s.sys.cancel = true) :
    t.sys.cancel = true ∧ (t.sys.ps = .read → s.sys.ps = .read) := by
  cases m with
  | raise =>
    obtain ⟨hc, hps⟩ := s.raise_keeps _ _
    exact ⟨hc.trans hcancel, hps.symm.trans⟩
  | poll =>
    rw [hcancel]
    exact ⟨hcancel, nofun⟩
  | pushHeld | pushEnd | start | srcOk | srcErr => exact ⟨hcancel, nofun⟩
  | cancel => exact ⟨rfl, id⟩
  | _ => exact ⟨hcancel, id⟩

theorem Action.no_new_read {o : Option Instr} {s t : State} (a : Action o s t) (hcancel : s.sys.cancel = true) :
    t.sys.cancel = true ∧ (t.sys.ps = .read → s.sys.ps = .read) := by
  cases a with
  | refuse op f =>
    obtain ⟨hc, hps⟩ := s.raise_keeps op f
    exact ⟨hc.trans hcancel, hps.symm.trans⟩
  | move _ m => exact m.no_new_read hcancel
  | _ => exact ⟨hcancel, id⟩

/-- Settles O60: the FIFO holds at most K buffers, and each side at most one. -/
theorem noReadAfterCancellation : Obligations.NoReadAfterCancellation := by
  unfold Obligations.NoReadAfterCancellation
  refine ⟨fun s t hcancel hstep hreset => (step_action hstep hreset).no_new_read hcancel, fun s h => ?_⟩
  change _ ≤ s.cfg.k + 1 + 1
  refine Nat.add_le_add (Nat.add_le_add (List.countP_le_length.trans h.fifo_le) ?_) ?_
  · split <;> omega
  · split <;> omega

end Sys2Proof.Machine
end

section
/-! No loss (47_pipeline.md R444 to R446): what is emitted and owed is the packets of the delivered blocks, so in a
final state the output is. -/

namespace Sys2Proof.Machine

/-! ## What each side owes -/

def csOwes (vd : VarDiv) : ConsState → List Packet
  | .scan mb st i => packetsOr (scanFrom vd mb st (mb.length + 1 - (i + winLen)) i)
  | .idle => []
  | .pop => []
  | .done => []

theorem csOwes_pop (vd : VarDiv) : csOwes vd .pop = [] := rfl

def psOwes (vd : VarDiv) : ProdState → List Packet
  | .push e => entryPackets vd e
  | .idle => []
  | .poll => []
  | .read => []
  | .stop => []
  | .done => []

theorem psOwes_poll (vd : VarDiv) : psOwes vd .poll = [] := rfl

theorem owed_eq (s : State) :
    owed s = s.sys.out ++ csOwes s.cfg.varDiv s.sys.cs ++ s.sys.fifo.flatMap (entryPackets s.cfg.varDiv) ++
      psOwes s.cfg.varDiv s.sys.ps := by
  unfold owed consumerOwes producerOwes
  congr 1
  · cases s.sys.cs <;> rfl
  · cases s.sys.ps <;> rfl

theorem owed_eq_of_same {s t : State} (hcfg : t.cfg = s.cfg) (hsys : t.sys = { s.sys with fault := t.sys.fault }) :
    owed t = owed s := by
  rw [owed_eq, owed_eq, hcfg, hsys]

theorem owed_raise (s : State) (op : BitVec 8) (f : Raise) : owed (s.raise op f) = owed s := by
  obtain ⟨hcfg, _, _, _, _, _, hsys⟩ := s.raise_frame op f
  exact owed_eq_of_same hcfg hsys

theorem packetsOr_ok (pkts : List Packet) : packetsOr (.ok pkts) = pkts := rfl

theorem entryPackets_data (vd : VarDiv) (mb : List Nat) :
    entryPackets vd (.data mb) =
      (List.range' 0 (mb.length - 239)).filterMap (candidatePacket vd mb (statsOf mb)) := by
  rw [entryPackets, scanBuffer_eq_ok, packetsOr_ok, List.range_eq_range']

theorem entryPackets_of_short (vd : VarDiv) {mb : List Nat} (h : mb.length < 240) :
    entryPackets vd (.data mb) = [] := by
  rw [entryPackets_data, Nat.sub_eq_zero_of_le (by omega)]
  rfl

/-- A scan with well-formed statistics owes the packets of the offsets it has not tested. -/
theorem csOwes_scan {vd : VarDiv} {mb : List Nat} {st : Stats} (hst : checkStats vd st = .ok ()) (i : Nat) :
    csOwes vd (.scan mb st i) = (List.range' i (mb.length - 239 - i)).filterMap (candidatePacket vd mb st) := by
  have hrounds : mb.length + 1 - (i + winLen) = mb.length - 239 - i := by
    rw [winLen, preLen, payLen]
    omega
  rw [csOwes, hrounds, scanFrom_eq_ok hst (by omega), packetsOr_ok]

theorem csOwes_scan_start {vd : VarDiv} {mb : List Nat} (h : 240 ≤ mb.length) :
    csOwes vd (.scan mb (statsOf mb) 0) = entryPackets vd (.data mb) := by
  rw [csOwes_scan (checkStats_statsOf (by omega)), entryPackets_data, Nat.sub_zero]

theorem csOwes_scan_step {vd : VarDiv} {mb : List Nat} {st : Stats} {i : Nat} (hst : checkStats vd st = .ok ())
    (hw : i + 240 ≤ mb.length) :
    csOwes vd (.scan mb st i) = (candidatePacket vd mb st i).toList ++ csOwes vd (.scan mb st (i + 1)) := by
  obtain ⟨n, hn⟩ : ∃ n, mb.length - 239 - i = n + 1 := ⟨mb.length - 240 - i, by omega⟩
  have hrest : mb.length - 239 - (i + 1) = n := by omega
  rw [csOwes_scan hst, csOwes_scan hst, hn, hrest, List.range'_succ, List.filterMap_cons]
  cases candidatePacket vd mb st i <;> rfl

theorem csOwes_scan_end {vd : VarDiv} {mb : List Nat} {st : Stats} {i : Nat} (hst : checkStats vd st = .ok ())
    (hw : mb.length < i + 240) : csOwes vd (.scan mb st i) = [] := by
  rw [csOwes_scan hst, Nat.sub_eq_zero_of_le (by omega)]
  rfl

/-! ## What an operation delivers -/

/-- The packets of the block an operation delivers, none for any other operation (47_pipeline.md R446). -/
def deliveredPackets (cfg : Params) (i : Instr) : List Packet :=
  match i with
  | .hSrcOk blk => blockPackets cfg blk
  | _ => []

theorem deliveredPackets_of_not_answer {cfg : Params} {i : Instr} (h : ¬ IsAnswer i) : deliveredPackets cfg i = [] := by
  cases i with
  | hSrcOk blk => exact absurd (.inr ⟨blk, rfl⟩) h
  | _ => rfl

theorem blockPackets_of_ok {cfg : Params} {blk mb : List Nat} (h : magBlock cfg.c blk = .ok mb) :
    blockPackets cfg blk = entryPackets cfg.varDiv (.data mb) := by
  simp only [blockPackets, h, entryPackets]

theorem blockPackets_of_error {cfg : Params} {blk : List Nat} {f : Raise} (h : magBlock cfg.c blk = .error f) :
    blockPackets cfg blk = [] := by
  simp only [blockPackets, h]

theorem MayRaise.deliveredPackets {i : Instr} {s : State} {f : Raise} (h : MayRaise i s f) :
    deliveredPackets s.cfg i = [] := by
  cases i with
  | hSrcOk blk =>
    obtain ⟨_, _, hmb⟩ := h
    exact blockPackets_of_error hmb
  | _ => rfl

theorem deliveredPackets_of_port {cfg : Params} {i : Instr} (hp : i.port ≠ .host) : deliveredPackets cfg i = [] := by
  refine deliveredPackets_of_not_answer ?_
  rintro (rfl | ⟨blk, rfl⟩) <;> exact hp rfl

/-- Every move of a run keeps what is emitted and owed, but for the packets of a delivered block. -/
theorem Move.owed_eq {i : Instr} {s t : State} (m : Move i s t) (h : RunInv s) (hstarted : s.sys.co ≠ .idle) :
    owed t = owed s ++ deliveredPackets s.cfg i := by
  cases m with
  | reply v u hi =>
    obtain ⟨hcmd, _⟩ := hi
    rw [deliveredPackets_of_port (hcmd.trans_ne nofun), List.append_nil]
    rfl
  | raise hmay => rw [hmay.deliveredPackets, owed_raise, List.append_nil]
  | wait hi => rw [deliveredPackets_of_port ((agentStep_port hi).trans_ne nofun), List.append_nil]
  | push _ hco => exact absurd hco hstarted
  | pushWait _ hco => exact absurd hco hstarted
  | pop hco => exact absurd hco hstarted
  | popWait hco => exact absurd hco hstarted
  | start hco => exact absurd hco hstarted
  | poll hps =>
    have hnone : psOwes s.cfg.varDiv (if s.sys.cancel then .stop else .read) = [] := by split <;> rfl
    simp [Machine.owed_eq, hps, hnone, psOwes_poll, deliveredPackets]
  | pushHeld hps => simp [Machine.owed_eq, hps, psOwes, deliveredPackets]
  | pushEnd hps => simp [Machine.owed_eq, hps, psOwes, deliveredPackets, entryPackets]
  | popEnd hcs hq => simp [Machine.owed_eq, hcs, hq, csOwes, deliveredPackets, entryPackets]
  | popShort hcs hq hshort =>
    simp [Machine.owed_eq, hcs, hq, csOwes, deliveredPackets, entryPackets_of_short _ hshort]
  | popLong hcs hq hlong =>
    simp [Machine.owed_eq, hcs, hq, deliveredPackets, csOwes_scan_start hlong, csOwes_pop]
  | scan hcs hw hst => simp [Machine.owed_eq, hcs, deliveredPackets, csOwes_scan_step hst hw]
  | scanEnd hcs hw =>
    obtain ⟨_, hst⟩ := h.scan_stats hcs
    simp [Machine.owed_eq, hcs, deliveredPackets, csOwes_scan_end hst hw, csOwes_pop]
  | joinP => exact (List.append_nil _).symm
  | joinC => exact (List.append_nil _).symm
  | cancel => exact (List.append_nil _).symm
  | srcOk hps hlen hmb => simp [Machine.owed_eq, hps, psOwes, deliveredPackets, blockPackets_of_ok hmb]
  | srcErr hps => simp [Machine.owed_eq, hps, psOwes, deliveredPackets]

/-- When the coordinator has exited nothing is in flight. -/
theorem RunInv.owed_of_exited {s : State} (h : RunInv s) (hco : s.sys.co = .exited) : owed s = s.sys.out := by
  obtain ⟨hps, hcs, _⟩ := h.exited_done hco
  obtain ⟨_, hq⟩ := h.consumer_done hcs
  simp [owed_eq, hps, hcs, hq, csOwes, psOwes]

/-- Settles O55: the moves of a run, one by one. -/
theorem owedPacketsAreConserved : Obligations.OwedPacketsAreConserved := by
  unfold Obligations.OwedPacketsAreConserved
  refine ⟨fun i s t h hl hstarted hexec _ => ?_, fun s h hco => h.owed_of_exited hco⟩
  rw [(exec_next hl hexec).owed_eq h hstarted]
  cases i <;> rfl

/-! ## The answers of a run -/

theorem answeredPackets_append (cfg : Params) (as bs : List Instr) :
    answeredPackets cfg (as ++ bs) = answeredPackets cfg as ++ answeredPackets cfg bs := List.flatMap_append

theorem answeredPackets_singleton (cfg : Params) (a : Instr) : answeredPackets cfg [a] = deliveredPackets cfg a := by
  rw [answeredPackets, List.flatMap_singleton]
  cases a <;> rfl

/-- The answer the next step accepts, if it accepts one (47_pipeline.md R432, R433). -/
def acceptedAnswer (s : State) : List Instr :=
  match nextInstr s with
  | some (.hSrcOk blk) => if s.readRequested ∧ Live s then [.hSrcOk blk] else []
  | some .hSrcErr => if s.readRequested ∧ Live s then [.hSrcErr] else []
  | _ => []

theorem answers_succ {s t : State} (h : step s = .next t) (n : Nat) :
    answers (n + 1) s = acceptedAnswer s ++ answers n t := by
  rw [answers, h]
  rfl

theorem acceptedAnswer_of_none {s : State} (h : nextInstr s = none) : acceptedAnswer s = [] := by
  rw [acceptedAnswer, h]

theorem acceptedAnswer_of_not_answer {s : State} {i : Instr} (h : nextInstr s = some i) (hi : ¬ IsAnswer i) :
    acceptedAnswer s = [] := by
  rw [acceptedAnswer, h]
  cases i with
  | hSrcOk blk => exact absurd (.inr ⟨blk, rfl⟩) hi
  | hSrcErr => exact absurd (.inl rfl) hi
  | _ => rfl

theorem acceptedAnswer_of_read {s : State} {i : Instr} (h : nextInstr s = some i) (hi : IsAnswer i) (hl : Live s)
    (hps : s.sys.ps = .read) : acceptedAnswer s = [i] := by
  rw [acceptedAnswer, h]
  rcases hi with rfl | ⟨blk, rfl⟩
  · exact if_pos ⟨readRequested_eq_true_iff.2 hps, hl⟩
  · exact if_pos ⟨readRequested_eq_true_iff.2 hps, hl⟩

theorem acceptedAnswer_of_not_live {s : State} (hl : ¬ Live s) : acceptedAnswer s = [] := by
  have hnot : ¬ (s.readRequested ∧ Live s) := fun h => hl h.2
  unfold acceptedAnswer
  split
  · exact if_neg hnot
  · exact if_neg hnot
  · rfl

/-! ## A run and its answers -/

/-- What ties a state of a run to the answers accepted so far, `as`: before START there are none, after it everything
emitted and owed comes from them, and an acquisition error is a failed read among them. -/
structure RunOf (cfg : Params) (as : List Instr) (s : State) : Prop where
  inv : RunInv s
  cfg_eq : s.cfg = cfg
  idle_unasked : s.sys.co = .idle → as = []
  owed_eq : s.sys.co ≠ .idle → owed s = answeredPackets cfg as
  acqErr_iff : s.sys.acqErr = true ↔ .hSrcErr ∈ as

theorem runOf_reset (cfg : Params) (evs : List Event) : RunOf cfg [] { State.reset with cfg := cfg, sched := evs } where
  inv := runInv_of_reset rfl rfl
  cfg_eq := rfl
  idle_unasked := fun _ => rfl
  owed_eq := fun h => absurd rfl h
  acqErr_iff := iff_of_false nofun nofun

/-- Nothing that the relation reads is changed, or the machine has not been started. -/
theorem RunOf.of_same {cfg : Params} {as : List Instr} {s t : State} (h : RunOf cfg as s) (hinv : RunInv t)
    (hcfg : t.cfg = s.cfg) (hco : t.sys.co = s.sys.co) (hacq : t.sys.acqErr = s.sys.acqErr)
    (howed : s.sys.co ≠ .idle → owed t = owed s) : RunOf cfg as t where
  inv := hinv
  cfg_eq := hcfg.trans h.cfg_eq
  idle_unasked := fun hi => h.idle_unasked (hco.symm.trans hi)
  owed_eq := fun hi => (howed (hco ▸ hi)).trans (h.owed_eq (hco ▸ hi))
  acqErr_iff := by rw [hacq]; exact h.acqErr_iff

theorem RunOf.raise {cfg : Params} {as : List Instr} {s : State} (h : RunOf cfg as s) (op : BitVec 8) (f : Raise) :
    RunOf cfg as (s.raise op f) := by
  obtain ⟨hcfg, _, _, _, _, _, hsys⟩ := s.raise_frame op f
  exact h.of_same (h.inv.raise op f) hcfg (by rw [hsys]) (by rw [hsys]) fun _ => owed_raise s op f

theorem RunOf.setSched {cfg : Params} {as : List Instr} {s : State} (h : RunOf cfg as s) (evs : List Event) :
    RunOf cfg as (s.setSched evs) :=
  h.of_same (h.inv.setSched evs) rfl rfl rfl fun _ => rfl

/-- START's FIFO is empty, so nothing is owed yet. -/
theorem RunOf.start {cfg : Params} {as : List Instr} {s : State} (h : RunOf cfg as s) (hco : s.sys.co = .idle)
    (hq : s.sys.fifo = []) : RunOf cfg as (((s.setCo .waitP).setPs .poll).setCs .pop) where
  inv := h.inv.start hco hq
  cfg_eq := h.cfg_eq
  idle_unasked := nofun
  owed_eq := fun _ => by
    obtain ⟨hout, _⟩ := h.inv.idle_clean hco
    rw [h.idle_unasked hco]
    simp [Machine.owed_eq, hout, hq, csOwes, psOwes, answeredPackets]
  acqErr_iff := h.acqErr_iff

/-- A move changes the acquisition error and the coordinator's idle state only by its own operation. -/
theorem Move.acqErr_and_idle {i : Instr} {s t : State} (m : Move i s t) :
    (i ≠ .hSrcErr → t.sys.acqErr = s.sys.acqErr) ∧ (i ≠ .start → (t.sys.co = .idle ↔ s.sys.co = .idle)) := by
  cases m with
  | raise =>
    obtain ⟨_, _, _, _, _, _, hsys⟩ := s.raise_frame _ _
    rw [hsys]
    exact ⟨fun _ => rfl, fun _ => Iff.rfl⟩
  | joinP hco => exact ⟨fun _ => rfl, fun _ => iff_of_false nofun (hco.trans_ne nofun)⟩
  | joinC hco => exact ⟨fun _ => rfl, fun _ => iff_of_false nofun (hco.trans_ne nofun)⟩
  | srcErr => exact ⟨fun h => absurd rfl h, fun _ => Iff.rfl⟩
  | start => exact ⟨fun _ => rfl, fun h => absurd rfl h⟩
  | _ => exact ⟨fun _ => rfl, fun _ => Iff.rfl⟩

/-- An accepted answer joins the answers of the run. -/
theorem RunOf.answer {cfg : Params} {as : List Instr} {s t : State} {i : Instr} (h : RunOf cfg as s) (m : Move i s t)
    (hi : IsAnswer i) : RunOf cfg (as ++ [i]) t := by
  have hstarted := h.inv.started_of_producer ((m.read_of_answer hi).trans_ne nofun)
  have hidle : i ≠ .start := by rintro rfl; rcases hi with hi | ⟨_, hi⟩ <;> cases hi
  obtain ⟨hacq, hco⟩ := m.acqErr_and_idle
  exact {
    inv := m.runInv h.inv
    cfg_eq := m.cfg_eq.trans h.cfg_eq
    idle_unasked := fun ht => absurd ((hco hidle).1 ht) hstarted
    owed_eq := fun _ => by
      rw [m.owed_eq h.inv hstarted, h.owed_eq hstarted, h.cfg_eq, answeredPackets_append, answeredPackets_singleton]
    acqErr_iff := by
      rw [List.mem_append, List.mem_singleton, ← h.acqErr_iff]
      rcases hi with rfl | ⟨blk, rfl⟩
      · obtain ⟨_, rfl⟩ := m.of_hSrcErr
        exact iff_of_true rfl (.inr rfl)
      · rw [hacq nofun]
        simp }

/-- Any other move adds no answer. -/
theorem RunOf.other {cfg : Params} {as : List Instr} {s t : State} {i : Instr} (h : RunOf cfg as s) (m : Move i s t)
    (hi : ¬ IsAnswer i) : RunOf cfg as t := by
  by_cases hstart : i = .start
  · subst hstart
    cases m with
    | start hco hq => exact h.start hco hq
    | raise => exact h.raise _ _
    | reply _ _ hi => cases hi.1
    | wait hi => exact nomatch agentStep_port hi
  · obtain ⟨hacq, hco⟩ := m.acqErr_and_idle
    exact {
      inv := m.runInv h.inv
      cfg_eq := m.cfg_eq.trans h.cfg_eq
      idle_unasked := fun ht => h.idle_unasked ((hco hstart).1 ht)
      owed_eq := fun ht => by
        have hstarted : s.sys.co ≠ .idle := mt (hco hstart).2 ht
        rw [m.owed_eq h.inv hstarted, h.owed_eq hstarted, deliveredPackets_of_not_answer hi, List.append_nil]
      acqErr_iff := by
        rw [hacq fun he => hi (.inl he)]
        exact h.acqErr_iff }

theorem RunOf.step {cfg : Params} {as : List Instr} {s t : State} (h : RunOf cfg as s) (hstep : step s = .next t)
    (hreset : s.sched.head? ≠ some .reset) : RunOf cfg (as ++ acceptedAnswer s) t := by
  have h' := h.setSched s.sched.tail
  have a := step_action hstep hreset
  generalize hs' : s.setSched s.sched.tail = s' at a h'
  have hlive : Live s ↔ Live s' := by rw [← hs']; exact Iff.rfl
  have hps : s.sys.ps = s'.sys.ps := by rw [← hs']; rfl
  generalize ho : nextInstr s = o at a
  cases a with
  | stay hidle =>
    have hnone : acceptedAnswer s = [] := by
      rcases hidle with hn | hl
      · exact acceptedAnswer_of_none (ho.trans hn)
      · exact acceptedAnswer_of_not_live (mt hlive.1 hl)
    rwa [hnone, List.append_nil]
  | refuse op f hl hport =>
    have hnone : acceptedAnswer s = [] := by
      cases o with
      | none => exact acceptedAnswer_of_none ho
      | some i =>
        refine acceptedAnswer_of_not_answer ho ?_
        rintro (rfl | ⟨blk, rfl⟩)
        · exact nomatch hport _ rfl
        · exact nomatch hport _ rfl
    rw [hnone, List.append_nil]
    exact h'.raise op f
  | @move i _ _ hl m =>
    by_cases hi : IsAnswer i
    · rw [acceptedAnswer_of_read ho hi (hlive.2 hl) (hps.trans (m.read_of_answer hi))]
      exact h'.answer m hi
    · rw [acceptedAnswer_of_not_answer ho hi, List.append_nil]
      exact h'.other m hi
  | portPush hl hco hport hroom =>
    rw [acceptedAnswer_of_none ho, List.append_nil]
    exact h'.of_same (Action.runInv h'.inv (.portPush hl hco hport hroom)) rfl rfl rfl fun hn => absurd hco hn
  | portPop hl hco hq =>
    rw [acceptedAnswer_of_none ho, List.append_nil]
    exact h'.of_same (Action.runInv h'.inv (.portPop hl hco hq)) rfl rfl rfl fun hn => absurd hco hn

/-! ## Whole runs -/

theorem Move.sched_eq {i : Instr} {s t : State} (m : Move i s t) : t.sched = s.sched := by
  cases m with
  | raise =>
    obtain ⟨_, _, _, hsched, _⟩ := s.raise_frame _ _
    exact hsched
  | _ => rfl

theorem Action.sched_eq {o : Option Instr} {s t : State} (a : Action o s t) : t.sched = s.sched := by
  cases a with
  | refuse op f =>
    obtain ⟨_, _, _, hsched, _⟩ := s.raise_frame op f
    exact hsched
  | move _ m => exact m.sched_eq
  | _ => rfl

theorem run_succ_next {M : Host.Core} {n : Nat} {s t : M.State} (h : M.run (n + 1) s = .next t) :
    ∃ u, M.step s = .next u ∧ M.run n u = .next t := by
  rw [Host.Core.run] at h
  split at h
  next u hu => exact ⟨u, hu, h⟩
  next => cases h
  next => cases h

/-- A run without a reset keeps the relation to its answers. -/
theorem RunOf.run {cfg : Params} {n : Nat} {as : List Instr} {s t : State} (h : RunOf cfg as s)
    (hreset : .reset ∉ s.sched) (hrun : core.run n s = .next t) : RunOf cfg (as ++ answers n s) t := by
  induction n generalizing as s with
  | zero =>
    cases hrun
    exact (List.append_nil as).symm ▸ h
  | succ n ih =>
    obtain ⟨u, hstep, hrest⟩ := run_succ_next hrun
    have hhead : s.sched.head? ≠ some .reset := fun hh => hreset (List.mem_of_head? hh)
    have hsched : u.sched = s.sched.tail := (step_action hstep hhead).sched_eq
    rw [answers_succ hstep, ← List.append_assoc]
    exact ih (h.step hstep hhead) (by rw [hsched]; exact mt List.mem_of_mem_tail hreset) hrest

theorem RunOf.out_prefix {cfg : Params} {as : List Instr} {s : State} (h : RunOf cfg as s) :
    s.sys.out <+: answeredPackets cfg as := by
  by_cases hco : s.sys.co = .idle
  · obtain ⟨hout, _⟩ := h.inv.idle_clean hco
    rw [hout]
    exact List.nil_prefix
  · rw [← h.owed_eq hco, Machine.owed_eq, List.append_assoc, List.append_assoc]
    exact List.prefix_append ..

theorem RunOf.of_exited {cfg : Params} {as : List Instr} {s : State} (h : RunOf cfg as s) (hco : s.sys.co = .exited) :
    s.sys.out = answeredPackets cfg as ∧ s.sys.status = some (if .hSrcErr ∈ as then .acqError else .ok) := by
  obtain ⟨_, _, hstatus⟩ := h.inv.exited_done hco
  obtain ⟨v, hv⟩ := Option.ne_none_iff_exists'.1 hstatus
  refine ⟨(h.inv.owed_of_exited hco).symm.trans (h.owed_eq (hco.trans_ne nofun)), ?_⟩
  rw [hv, h.inv.status_value v hv]
  simp only [h.acqErr_iff]

/-- Settles O56: a run starts at reset, related to no answer. -/
theorem outputIsScanOfDeliveredBlocks : Obligations.OutputIsScanOfDeliveredBlocks := by
  unfold Obligations.OutputIsScanOfDeliveredBlocks
  rintro cfg evs n t hreset hrun as rfl
  have h := (runOf_reset cfg evs).run hreset hrun
  rw [List.nil_append] at h
  exact ⟨h.out_prefix, fun hfinal => h.of_exited hfinal.1⟩

end Sys2Proof.Machine
end
